-- ==== Sys2Proof/Word.lean ====
section
/-! DEFINITION. The word types of the device: bytes, and the 64-bit quadwords of its setup registers. -/
namespace Sys2Proof

/-- One byte. -/
abbrev Byte := BitVec 8

/-- One setup-register quadword, the only unit of setup access (R478). -/
abbrev Quad := BitVec 64

/-- A partial map from numbers to values, kept as a list of pairs in one canonical form:
keys strictly rising and no entry equal to the map's default. -/
abbrev SMap (α : Type) := List (Nat × α)

end Sys2Proof
end

