-- ==== Sys2Proof/Machine/MemTypes.lean ====
section
/-! DEFINITION. The state of the memory tiers: HBM controllers, expansion ports and Sillage (09). -/
namespace Sys2Proof.Machine

/-- A memory: bytes by address, in one canonical form (addresses strictly rising, no entry equal to zero, which is
what an unlisted address reads as). -/
abbrev Memory := List Host.Cell

/-- One HBM controller HBM_n. -/
structure Hbm where
  ready    : Bool
  fail     : Bool
  /-- SCRUB.PERIOD -/
  period   : Nat
  /-- SCRUB.PASSES -/
  passes   : Nat
  /-- ERR.UE_COUNT -/
  ueCount  : Nat
  /-- ERR.LAST_UE, the granule's DPA[42:6] -/
  lastUe   : Nat
  /-- granules of this stack read by the running scrub pass -/
  scrubPos : Nat
  /-- refreshes performed -/
  refreshes : Nat
  /-- the temperature the stack last reported, in °C (R398, R400) -/
  temp     : Nat
  /-- issue is limited because the stack reached 95 °C (R400) -/
  hot      : Bool
  deriving DecidableEq, Repr

/-- One expansion port XP_n and the bytes of its device, by port address. -/
structure Xp where
  linkUp   : Bool
  rate     : Nat
  narrow   : Bool
  /-- the link has gone down and has not come back (R260) -/
  fell     : Bool
  devReady : Bool
  /-- capacity the device reports, in bytes -/
  reported : Nat
  en       : Bool
  tier     : Nat
  direct   : Nat
  mem      : Memory
  /-- 64-byte granules of the device whose reads bring poison, an error or nothing (R259) -/
  poison   : List Nat
  deriving DecidableEq, Repr

/-- What a Sillage move does (R265 to R270). -/
inductive MoveKind where
  /-- a page-in, on demand or by prefetch -/
  | pageIn (prefetch : Bool)
  /-- a commit; `full` treats the old copy as zero -/
  | commit (full : Bool)
  /-- an eviction, or a SILL_MOVE out of tier 0, to the tier -/
  | evict (tier : Nat)
  /-- a move of a parked page to a tier: SILL_MOVE, demotion or wear rotation -/
  | parked (tier : Nat)
  /-- a rebuild from the parity group -/
  | rebuild
  /-- a detach that takes the committed copy out of the parity -/
  | detach
  deriving DecidableEq, Repr

/-- Who waits for a move's page: a TE command or a control command. -/
inductive Waiter where
  /-- `own` is true of the command that asked for the move, and of one it serves with it -/
  | te (cluster te id : Nat) (own : Bool)
  | ctl (port ring index : Nat) (own : Bool)
  deriving DecidableEq, Repr

/-- A Sillage move, queued or in flight. -/
structure Move where
  id       : Nat
  cpn      : Nat
  kind     : MoveKind
  /-- arbitration class of R271, 0 demand first -/
  cls      : Nat
  inFlight : Bool
  /-- the tier-0 frame it uses -/
  frame    : Nat
  /-- the park frame it writes, as (port, frame) -/
  dst      : Option (Nat × Nat)
  /-- the CRC of the copy it wrote -/
  crc      : Nat
  /-- its fabric commands not yet ended, and the first failing status among them -/
  left     : Nat
  stat     : Nat
  /-- the first byte of the write has been issued (R266) -/
  writing  : Bool
  /-- the page was written since the move read it (R268) -/
  dirtied  : Bool
  /-- who waits for it -/
  waiters  : List Waiter
  deriving DecidableEq, Repr

/-- A used tier-0 pool frame: its page, age and referenced bit (R267). -/
structure Frame0 where
  cpn : Nat
  age : Nat
  ref : Bool
  deriving DecidableEq, Repr

/-- Sillage, the context pager. -/
structure Sillage where
  /-- SILL_CTRL -/
  en        : Bool
  cluster   : Nat
  te        : Nat
  agePeriod : Nat
  low       : Nat
  high      : Nat
  /-- SILL_CPT -/
  cptBase   : Nat
  cptLog2   : Nat
  /-- SILL_AUX -/
  pgtBase   : Nat
  pgtLog2   : Nat
  wearBase  : Nat
  wearDelta : Nat
  /-- SILL_POOL -/
  first     : Nat
  last      : Nat
  /-- SILL_STATUS.WAIT_EXPIRED -/
  waitExpired : Nat
  /-- used pool frames, by frame number -/
  frames    : SMap (Option Frame0)
  /-- park frames in use, as (port, frame) -/
  parkUsed  : List (Nat × Nat)
  /-- accepted prefetch entries, oldest first, at most 65,536 -/
  prefetch  : List Nat
  /-- SILL_PREFETCH commands whose lists wait for space, in arrival order: cluster, TE and command (R267) -/
  prefWait  : List (Nat × Nat × Nat)
  /-- moves queued or in flight -/
  moves     : List Move
  nextMove  : Nat
  /-- an eviction run has begun and has not reached HIGH (R266) -/
  evicting  : Bool
  deriving DecidableEq, Repr

end Sys2Proof.Machine
end

