-- ==== Sys2Proof/Packet.lean ====
section
/-! DEFINITION. What travels on the fabric: packets (R74), link frames (R338), training frames (R333) and ID
frames (R336). -/
namespace Sys2Proof

/-- The packet header, 32 bytes (R74). -/
structure Header where
  dnode  : BitVec 12
  snode  : BitVec 12
  op     : BitVec 8
  len    : BitVec 9
  vc     : BitVec 3
  hop    : BitVec 2
  ep     : BitVec 1
  f      : BitVec 1
  stag   : BitVec 6
  part   : BitVec 6
  rsv0   : BitVec 4
  offset : BitVec 52
  tid    : BitVec 12
  cnt    : BitVec 16
  attr   : BitVec 8
  wgen   : BitVec 8
  step   : BitVec 16
  level  : BitVec 4
  index  : BitVec 12
  rsv1   : BitVec 48
  hcrc   : BitVec 16
  deriving DecidableEq, Repr

/-- A packet: header, payload bytes, and the 8-byte trailer present whenever LEN > 0 (R74, R76). -/
structure Packet where
  hdr     : Header
  payload : List Byte
  trailer : Quad
  deriving DecidableEq, Repr

/-- The TYPE of a link frame (R338); values 5 to 7 are reserved and arrive as a bad frame. -/
inductive FrameType where
  | idle | data | dataT | ctrl | degrade
  deriving DecidableEq, Repr

/-- A link frame but for its TYPE (R338): header fields, 240 data bytes, and the CRC-64. -/
structure Frame where
  seq    : BitVec 16
  ack    : BitVec 16
  pstart : BitVec 5
  pad    : BitVec 5
  cvc    : BitVec 3
  ccnt   : BitVec 11
  replay : BitVec 1
  rsv    : BitVec 4
  data   : List Byte
  crc    : Quad
  deriving DecidableEq, Repr

/-- A request for one transmitter tap (R333). -/
inductive TapReq where
  | hold | increment | decrement | reserved
  deriving DecidableEq, Repr

/-- The status of one transmitter tap (R333). -/
inductive TapStat where
  | notUpdated | updated | atLimit | refused
  deriving DecidableEq, Repr

/-- The five taps of a lane, c(−3) to c(+1), each with an `α` (R333, R334). -/
structure Taps (α : Type) where
  m3 : α
  m2 : α
  m1 : α
  c0 : α
  p1 : α
  deriving DecidableEq, Repr

/-- What the FEC decoders found in the codewords that ended with a received frame: the lane and the symbol errors of
each (R330). -/
abbrev FecWork := List (Fin 4 × Nat)

/-- The fields of a training frame but for SYNC and CRC (R333). -/
structure TrainFrame where
  lane       : Fin 4
  portOff    : Fin 4
  state      : Fin 16
  vers       : Fin 8
  precodeReq : Bool
  preset     : Fin 4
  req        : Taps TapReq
  stat       : Taps TapStat
  done       : Bool
  deriving DecidableEq, Repr

/-- An ID frame (R336): position, port offset, partition or none, and GMIN_0 to GMIN_7. -/
structure IdFrame where
  position : Nat
  portOff  : Nat
  part     : Option Nat
  gmin     : List Nat
  deriving DecidableEq, Repr

end Sys2Proof
end

