-- ==== Sys2Proof/Machine/SystemTypes.lean ====
section
/-! DEFINITION. The state of power control, the seal core, the management processor, the side-band port, the
counters and the package's boot (14, 15, 16, 17, 18, 20). -/
namespace Sys2Proof.Machine

/-- What the host's configuration writes leave in a port's capabilities (R52 to R55, R352, assumption 68). -/
structure PciCfg where
  /-- ATS Control Enable, PRI Enable -/
  atsEn  : Bool
  priEn  : Bool
  /-- Device Control 2, bits [4:0]: the completion timeout value and its disable bit -/
  cto    : Nat
  /-- Power Management state: D3hot, else D0 -/
  d3hot  : Bool
  /-- Unsupported Request Error Status of AER is cleared -/
  clrAer : Bool
  deriving DecidableEq, Repr

/-- Who makes a register access: a host port, the side-band, a management packet of a node, or
steward (R425, R478, R486). -/
inductive Path where
  | hp (x : Fin 2)
  | sideband
  | mgmt (snode : BitVec 12)
  | steward
  deriving DecidableEq, Repr

/-- GLOBAL.PKG_STATE.STATE. -/
inductive PkgState where
  | unconfigured | configured | assigned | running | draining | fenced | clearing
  deriving DecidableEq, Repr

/-- The state of a power domain. -/
inductive DomState where
  | full | trim | doze | park | off
  deriving DecidableEq, Repr

/-- The power domains of R384 that change state by themselves. -/
inductive Domain where
  | core (c : Fin 16) (k : Fin 8)
  | pool (c : Fin 16)
  | endpoint (e : Fin 16)
  | switch
  | port (n : Fin 88)
  | hbm (n : Fin 12)
  | xp (n : Fin 4)
  /-- the periphery of a core's SPM while the core is in DOZE or PARK (R385) -/
  | spm (c : Fin 16) (k : Fin 8)
  deriving DecidableEq, Repr

/-- Power and thermal control (14). -/
structure Power where
  /-- the limit controller runs -/
  running : Bool
  /-- BIAS_s, bits [16:0] -/
  bias : SMap Nat
  /-- STATUS.LIMIT, the working limit W -/
  limit : Nat
  /-- the estimate of package power, in W, and its averages over 10 µs and 1 ms -/
  estimate : Nat
  p10 : Nat
  power : Nat
  /-- STATUS.OPPT, DUTY + 1 and HBM_ISSUE -/
  oppt : Nat
  duty : Nat
  hbmIssue : Nat
  clamp : Bool
  capUnmet : Bool
  warn : Bool
  orphan : Bool
  throttle : Bool
  swSlow : Bool
  /-- CAP_HOST and CAP_RACK as last written; none while they still hold the TDP (R391) -/
  capHost : Option Nat
  capRack : Option Nat
  warnCap : Nat
  warnDuty : Nat
  warnCount : Nat
  orphanCap : Nat
  /-- the limit below the caps that power policy firmware holds (R424) -/
  policy    : Option Nat
  silence : Nat
  armed : Bool
  /-- when each manager's last heartbeat came, 1 + ns; 0 for never -/
  beat0 : Nat
  beat1 : Nat
  tjMax : Nat
  sensor : Nat
  throttleC : Nat
  evCapUnmet : Bool
  evWarn : Bool
  evOrphan : Bool
  evThrottle : Bool
  evSwSlow : Bool
  evHbmHot : Bool
  hbmPark : Nat
  poolUs : Nat
  /-- the operating point a change in progress moves to -/
  target : Option Nat
  /-- an AVSBus command is unacknowledged and is being retried (R498) -/
  avsFail : Bool
  /-- PMBus reads have failed for 10 ms (R498) -/
  pmbusFail : Bool
  /-- since when the estimate has fitted the limit, 1 + ns; 0 while it does not (R395) -/
  fitSince : Nat
  /-- rung the thermal rule holds (R398) -/
  thermalRung : Nat
  /-- domains not in FULL, keyed by a domain's number -/
  domains : SMap DomState
  /-- the bias and assist codes each domain applied as it entered its state: 1 + BIAS_s, 0 for none (R389) -/
  applied : SMap Nat
  deriving DecidableEq, Repr

/-- A firmware image as the seal core sees it once verified: its digest and security version (R428). -/
structure Image where
  digest : List Byte
  svn    : Nat
  deriving DecidableEq, Repr

/-- An image delivery over the side-band (R458). -/
structure Delivery where
  steward : Bool
  total   : Nat
  bytes   : List Byte
  deriving DecidableEq, Repr

/-- A mailbox (R430). -/
structure Mbox where
  req    : List Byte
  busy   : Bool
  status : Nat
  rsp    : List Byte
  deriving DecidableEq, Repr

/-- A mailbox request executing or waiting: its mailbox, the status and the response it will end with. -/
structure MboxJob where
  box    : Nat
  status : Nat
  rsp    : List Byte
  deriving DecidableEq, Repr

/-- The clear in progress (R437, R438). -/
structure ClearRun where
  /-- method used or attempted by each port, two bits each -/
  methods : Nat
  t0Bytes : Nat
  t1Bytes : Nat
  t2Bytes : Nat
  deriving DecidableEq, Repr

/-- The seal core, its mailboxes and the clear (16). -/
structure Seal where
  ready : Bool
  ident : Bool
  identFail : Bool
  noiseFail : Bool
  conf : Bool
  /-- the measurement log, oldest first, at most 512 digests -/
  log : List (List Byte)
  blocked : Nat
  mbox : SMap Mbox
  jobs : List MboxJob
  /-- CLEAR_CFG -/
  method : Nat
  limitS : Nat
  /-- CLEAR -/
  phase : Nat
  portsDone : Nat
  percent : Nat
  result : Nat
  seq : Nat
  run : ClearRun
  /-- certificates, oldest first, at most 4 -/
  certs : List (List Byte)
  sealImage : Image
  stewardImage : Image
  /-- the 32-byte boot nonce, once the seal firmware runs (R429) -/
  bnonce : List Byte
  deriving DecidableEq, Repr

/-- A management packet of the switch, with what the manager list said of its SNODE as it arrived (R33). -/
structure MgmtPkt where
  pkt    : Packet
  listed : Bool
  deriving DecidableEq, Repr

/-- The management processor and its supervision (R422 to R424). -/
structure Mgmt where
  up : Bool
  beats : Nat
  restarts : Nat
  cause : Nat
  restarted : Bool
  /-- held in reset for a restart, and waiting for a verified image -/
  restarting : Bool
  /-- management packets the management function has accepted from the switch (R284) -/
  rx : List MgmtPkt
  /-- management packets that wait in the switch for space for their response, with the number of the cells each holds
  (R284) -/
  held : List (MgmtPkt × Nat)
  /-- MGMT_MSG payloads delivered -/
  inbox : List (List Byte)
  /-- responses to management requests of this package, handed to the management processor -/
  answers : List Packet
  /-- PLDM terminus ID -/
  tid : Nat
  /-- PLDM sensor values last refreshed -/
  sensors : List Nat
  /-- the nonce of the measurement request being relayed to mailbox 2 (R461) -/
  relay : Option (List Byte)
  deriving DecidableEq, Repr

/-- The side-band port (17). -/
structure Sideband where
  /-- dynamic address, 0 for none -/
  daddr : Nat
  eid : Nat
  discard : Nat
  /-- in-band interrupts enabled -/
  ibi : Bool
  delivery : Option Delivery
  deriving DecidableEq, Repr

/-- Boot, grade and readiness of the package (R4, R447 to R452). -/
structure Boot where
  /-- RST_N is high and no other cause holds the device in reset -/
  out : Bool
  /-- RST_N is high at the pin -/
  rstN : Bool
  /-- REFCLK_CORE is present -/
  refclk : Bool
  /-- THERMTRIP_N is asserted (R401) -/
  thermtrip : Bool
  /-- GLOBAL.BOOT -/
  state : Nat
  source : Bool
  copy : Bool
  early : Nat
  /-- BIST has ended -/
  bistDone : Bool
  code : Nat
  fault : Nat
  enabled : Nat
  pass : Nat
  /-- GLOBAL.READY.EPB, COUNTERS -/
  epbReady : Nat
  counters : Bool
  deriving DecidableEq, Repr

/-- A performance counter (R465). -/
structure Counter where
  value : Nat
  ovf   : Bool
  deriving DecidableEq, Repr

/-- The counters, their snapshot copies and control registers (18). Keys: core 48 (8 c + k) + i, EPB 32 e + i,
HBM 16 n + i, port 24 n + i. -/
structure Counters where
  core : SMap Counter
  epb  : SMap Counter
  hbm  : SMap Counter
  port : SMap Counter
  coreSnap : SMap Counter
  epbSnap  : SMap Counter
  hbmSnap  : SMap Counter
  portSnap : SMap Counter
  user  : Nat
  chain : Nat
  busy  : Bool
  /-- islands still to be copied, a mask -/
  todo  : Nat
  seq   : Nat
  times : SMap Nat
  deriving DecidableEq, Repr

/-- GLOBAL.ACCESS_ERR. -/
structure AccessErr where
  count  : Nat
  addr   : Nat
  source : Nat
  write  : Bool
  deriving DecidableEq, Repr

/-- An entry GLOBAL.MGR_LIST_n. -/
structure MgrEntry where
  node  : Nat
  valid : Bool
  deriving DecidableEq, Repr

/-- The GLOBAL registers not held elsewhere, and the package state. -/
structure Global where
  position : Nat
  positionValid : Bool
  slot : Nat
  slotValid : Bool
  /-- PARTITION.ID with VALID, and SEALED -/
  part : Option Nat
  sealed_ : Bool
  mgrReject : Nat
  mgrs : SMap MgrEntry
  accessErr : AccessErr
  roUs : Nat
  holdUs : Nat
  replaySeq : Nat
  state : PkgState
  /-- REQ = CLEARING has been accepted and waits for the window commands in progress (R421) -/
  clearWait : Bool
  refused : Bool
  changes : Nat
  /-- DAS_ROOT_n: 1 + ROOT while VALID, and the ROOT otherwise kept -/
  dasValid : SMap Bool
  dasRoot : SMap Nat
  /-- fault records waiting for a host link, at most 256 (R373) -/
  heldRecords : List (List Byte)
  /-- staged upper quadwords of wide registers, by quadword address (R480): 1 + value -/
  staged : SMap Nat
  deriving DecidableEq, Repr

end Sys2Proof.Machine
end

