-- ==== Sys2Proof/Syntax.lean ====
section
/-! DEFINITION. The commands and events of the package: one constructor per row of the operation table, with its
operands. An operand is what comes from outside the package or what the rule leaves to another unit's judgement;
everything else is in the state. -/
namespace Sys2Proof

open Machine (Path Domain Image DomState PciCfg)

/-- A completion-side ring of a host port. -/
inductive RingRef where
  | cq (r : Fin 256) | eq | fq
  deriving DecidableEq, Repr

/-- A ring of a host port as a register (R355). -/
inductive RingReg where
  | sq (r : Fin 256) | cq (r : Fin 256) | eq | fq
  deriving DecidableEq, Repr

/-- Where a NOP stands: next in a TE queue (data ring), or first among a control ring's commands. -/
inductive NopSite where
  | te (c : Fin 16) (t : Fin 8) | ctl (x : Fin 2) (r : Fin 256)
  deriving DecidableEq, Repr

/-- Where a multicast packet is served: at Prism of this package, from its input, or at a member endpoint. -/
inductive McastSite where
  | prism (i : Fin 104) | endpoint (e : Fin 16)
  deriving DecidableEq, Repr

/-- What a scrub finds in the granule it reads (R149, R255); `struck` tells of an error that arises there unseen, after
the scrub's read: in a single bit or symbol, or more than the code corrects. -/
inductive ScrubFind where
  | clean | corrected
  /-- corrected by the stack's own on-die code (R253) -/
  | onDie
  | uncorrectable
  | struck (single : Bool)
  deriving DecidableEq, Repr

/-- An SRAM array that is scrubbed (R149); the registers and tiles of a core are not, and can only be struck (R148). -/
inductive SramBank where
  | spm (c : Fin 16) (k : Fin 8) | imem (c : Fin 16) (k : Fin 8) | pool (c : Fin 16) | regs (c : Fin 16) (k : Fin 8)
  deriving DecidableEq, Repr

/-- What the audit engine finds for one cell (R308). -/
inductive AuditFind where
  | consistent
  /-- neither free nor held -/
  | unowned
  /-- free, and held by the packet at this place of this output queue -/
  | both (o : Fin 104) (v : Fin 8) (i : Nat)
  deriving DecidableEq, Repr

/-- What a lane's receiver wants next, which its equaliser judges (R334): nothing, a tap request, a preset, or it
has finished requesting. -/
inductive RxWish where
  | wait | tap (r : Taps TapReq) | preset (p : Fin 4) | done
  deriving DecidableEq, Repr

/-- Why a lane failed in the receive direction (R342). -/
inductive LaneCause where
  | signal | cdr | markers | codewords | laneOffset | tapUnfinished
  deriving DecidableEq, Repr

/-- What a port's mailbox or its zero writes report at the end of an expansion clear (R438). -/
inductive ClearOutcome where
  | passed | sampleFailed | error | linkDown
  deriving DecidableEq, Repr

/-- How an expansion device enumerates (R257, R258): a single directly attached Type 3 logical device with its
capacity in bytes, or anything else. -/
inductive XpDevice where
  | type3 (capacity : Nat) | unsupported
  deriving DecidableEq, Repr

/-- JTAG instructions (R503): those of IEEE 1149.1 the manual names, and any other. -/
inductive JtagInstr where
  | idcode | bypass | boundary | other
  deriving DecidableEq, Repr

/-- A PLDM numeric or state sensor steward exposes (R460). -/
inductive PldmSensor where
  | tjMax | hbmMax | power | limit | clearPercent | pkgState | capUnmet | throttle | clearPhase
  deriving DecidableEq, Repr

/-- The commands, in the order of the operation table. -/
inductive Instr where
  -- resets and power-up (17)
  | rstNRise
  | rstNPulse (ns : Nat)
  | vddAonBrownout
  | refclkCoreLoss (ns : Nat)
  | laneReferenceLoss (side : Fin 4)
  | sealFirmwareVerified (primary second : Option Image)
  | bistComplete (code : Fin 4) (pass : BitVec 128)
  | hbmTrainingComplete (n : Fin 12) (ok : Bool)
  | identityDerived (ok : Bool)
  | stewardReleased (image : Option Image)
  | xpEnumeration (n : Fin 4) (dev : XpDevice)
  | noiseHealthFail
  -- setup-register writes with a row of their own (19)
  | positionWrite (p : Path) (v : Quad)
  | slotWrite (p : Path) (v : Quad)
  | partitionWrite (p : Path) (v : Quad)
  | mgrListWrite (p : Path) (n : Fin 8) (v : Quad)
  | dasRootWrite (x : Fin 2) (n : Fin 16) (v : Quad)
  | lensDescriptorWrite (x : Fin 2) (e : Fin 16) (w : Fin 4096) (q : Fin 4) (v : Quad)
  | xpConfigWrite (x : Fin 2) (n : Fin 4) (v : Quad)
  | sillCtrlWrite (p : Path) (v : Quad)
  | sillConfigWrite (p : Path) (r : Fin 3) (v : Quad)
  | routeWrite (p : Path) (ver : Fin 2) (slot : Fin 256) (v : Quad)
  | mcastWrite (p : Path) (ver : Fin 2) (g : Fin 4096) (q : Fin 2) (v : Quad)
  | epochWrite (p : Path) (v : Quad)
  | epochDrainExpiry
  | fenceWrite (p : Path) (n : Fin 88) (v : Quad)
  | transitWrite (p : Path) (n : Fin 88) (v : Quad)
  | transitCfgWrite (p : Path) (v : Quad)
  | gminWrite (p : Path) (vc : Fin 8) (v : Quad)
  | shapeWrite (p : Path) (o : Fin 104) (vc : Fin 6) (q : Fin 2) (v : Quad)
  | shaperCommit (o : Fin 104) (vc : Fin 6)
  | polWrite (p : Path) (i : Fin 104) (c : Fin 2) (q : Fin 2) (v : Quad)
  | policerCommit (i : Fin 104) (c : Fin 2)
  | mirrorCfgWrite (p : Path) (v : Quad)
  | registerWrite (p : Path) (addr : BitVec 26) (data : List Byte)
  | rcRead (p : Path) (addr : BitVec 26) (len : Nat)
  -- package state and clear (15, 16)
  | reqConfigured (p : Path)
  | reqAssigned (p : Path)
  | reqRunning (p : Path)
  | reqDraining (p : Path)
  | reqFenced (p : Path)
  | reqClearing (p : Path)
  | tier0FillComplete
  | tier0VerifyComplete (zero : Bool) (bytes : Nat)
  | expansionClearComplete (n : Fin 4) (method : Fin 3) (r : ClearOutcome)
  | clearLimitExpiry (n : Fin 4)
  | clearCertify
  | getIdentity (m : Fin 3)
  | getReport (m : Fin 3) (nonce : List Byte)
  | mailboxRequestComplete
  | setConfidential (m : Fin 3)
  | clearRetry (m : Fin 3)
  | watchdogService
  | watchdogExpiry
  | restart
  | mpRestartComplete (image : Option Image)
  | replayOrder (p : Path) (v : Quad)
  -- rings and doorbells (13)
  | tailDoorbell (x : Fin 2) (r : Fin 256) (off : BitVec 12) (data : List Byte)
  | headDoorbell (x : Fin 2) (r : RingRef) (v : BitVec 32)
  | ringEnable (x : Fin 2) (r : RingReg) (v : Quad)
  | ringDisable (x : Fin 2) (r : RingReg) (v : Quad)
  | commandTake (x : Fin 2) (r : Fin 256) (entry : List Byte)
  | nop (site : NopSite)
  -- data commands, as the next command of a transfer engine; `host` is the data host memory returns
  | copy (c : Fin 16) (t : Fin 8) (host : List Byte)
  | verify (c : Fin 16) (t : Fin 8) (host : List Byte)
  | put (c : Fin 16) (t : Fin 8) (host : List Byte)
  | get (c : Fin 16) (t : Fin 8)
  | mput (c : Fin 16) (t : Fin 8) (host : List Byte)
  | rput (c : Fin 16) (t : Fin 8) (host : List Byte)
  | oput (c : Fin 16) (t : Fin 8) (host : List Byte)
  | lseput (c : Fin 16) (t : Fin 8) (host : List Byte)
  | atomic (c : Fin 16) (t : Fin 8)
  | sillPrefetch (c : Fin 16) (t : Fin 8)
  | sillCommit (c : Fin 16) (t : Fin 8)
  -- control commands, as the next command of a control ring
  | windowUpdate (x : Fin 2) (r : Fin 256)
  | windowUpdateSwitchPoint (e : Fin 16) (w : Fin 4096)
  | windowUpdateDrained (x : Fin 2) (r : Fin 256) (index : BitVec 32)
  | lensInvalidate (x : Fin 2) (r : Fin 256)
  | lensInvalidateDrained (x : Fin 2) (r : Fin 256) (index : BitVec 32)
  | dvaInvalidate (x : Fin 2) (r : Fin 256)
  | dvaInvalidateDrained (x : Fin 2) (r : Fin 256) (index : BitVec 32)
  | streamReset (x : Fin 2) (r : Fin 256)
  | programLoad (x : Fin 2) (r : Fin 256) (host : List Byte)
  | coreStart (x : Fin 2) (r : Fin 256)
  | coreStop (x : Fin 2) (r : Fin 256)
  | teResume (x : Fin 2) (r : Fin 256)
  | sillAttach (x : Fin 2) (r : Fin 256)
  | sillDetach (x : Fin 2) (r : Fin 256)
  | sillPin (x : Fin 2) (r : Fin 256)
  | sillUnpin (x : Fin 2) (r : Fin 256)
  | sillMove (x : Fin 2) (r : Fin 256)
  | sillRebuild (x : Fin 2) (r : Fin 256)
  -- transfer engines and translation (02, 03, 13)
  | teCommandStart (c : Fin 16) (t : Fin 8) (host : List Byte)
  | armedCommandStart (c : Fin 16) (t : Fin 8) (host : List Byte)
  | translationWalkComplete (c : Fin 16) (t : Fin 8)
  | translationCompletion (x : Fin 2) (pasid : Option (BitVec 20)) (page : BitVec 52) (log2 : Nat) (read write : Bool)
  | pageRequestGroupResponse (x : Fin 2) (page : BitVec 52) (success : Bool)
  | priWaitExpiry (x : Fin 2) (page : BitVec 52)
  | atsInvalidateRequest (x : Fin 2) (tag : Fin 32) (pasid : Option (BitVec 20)) (page : BitVec 52) (log2 : Nat)
  | invalidateCompletion (x : Fin 2) (tag : Fin 32)
  | teCommandCompletion (c : Fin 16) (t : Fin 8)
  -- fabric requests, as the next packet of an end-point block (03, 04)
  | load (e : Fin 16)
  | store (e : Fin 16)
  | fetchOp (e : Fin 16)
  | cswap (e : Fin 16)
  | reduce (e : Fin 16)
  | wreduce (e : Fin 16)
  | oreduce (e : Fin 16)
  | lse (e : Fin 16)
  | accordRootWritten (e : Fin 16) (w : Fin 4096) (pos : BitVec 40) (step : BitVec 16)
  | accordTimeout (e : Fin 16) (w : Fin 4096) (pos : BitVec 40) (step : BitVec 16)
  | mcastStore (at_ : McastSite)
  | mgmtRead
  | mgmtWrite
  | mgmtMsg
  -- responses, as the next packet of the endpoint of their transfer engine
  | loadResp (e : Fin 16)
  | storeAck (e : Fin 16)
  | fetchResp (e : Fin 16)
  | cswapResp (e : Fin 16)
  | reduceAck (e : Fin 16)
  | wreduceAck (e : Fin 16)
  | oreduceAck (e : Fin 16)
  | lseAck (e : Fin 16)
  | mcastAck (at_ : McastSite)
  | carryAck (e : Fin 16)
  | mgmtReadResp
  | mgmtWriteAck
  | mgmtMsgAck
  -- timers of the fabric (03, 04)
  | holdFullBackoffExpiry (c : Fin 16) (t : Fin 8) (slot : Fin 512)
  | remoteOperationTimeout (c : Fin 16) (t : Fin 8) (slot : Fin 512)
  | tidQuarantineExpiry (c : Fin 16) (t : Fin 8) (slot : Fin 512)
  | flagHoldTimeout (e : Fin 16) (snode : BitVec 12) (stag : BitVec 6)
  | collisionQueueDequeue (e : Fin 16)
  -- Sillage and the memory tiers (09)
  | pageInComplete (cpn : BitVec 22) (readOk : Bool)
  | pageWaitExpiry (e : Fin 16)
  | sillageMoveStart
  | eviction
  | evictionComplete (cpn : BitVec 22)
  | demotion
  | commitComplete (cpn : BitVec 22)
  | rebuildComplete (cpn : BitVec 22)
  | agePeriod
  | wearRotation
  | hbmRefresh (n : Fin 12)
  | patrolScrub (n : Fin 12) (found : ScrubFind)
  | scrubDeferralExpiry (bank : SramBank) (word : Nat) (found : ScrubFind)
  | xpLinkDown (n : Fin 4)
  | xpLinkUp (n : Fin 4) (fast narrow : Bool) (poison : List Nat)
  | xpRetrainWaitExpiry (n : Fin 4)
  -- the switch (10, 11)
  | packetArrival (i : Fin 104)
  | outputGrant (o : Fin 104)
  | ageDrop (o : Fin 104) (v : Fin 8)
  | gatherRecordTimeout (snode : BitVec 12) (tid : BitVec 12)
  | gatherRecordFreed (e : Fin 16)
  | portDown (n : Fin 88)
  | creditWatchdogExpiry (n : Fin 88) (v : Fin 8)
  | frameAckTimeout (o : Fin 104)
  | auditCellCheck (found : AuditFind)
  | queueSample (o : Fin 104) (v : Fin 8)
  | congestionMapPeriod
  -- lanes and links (12)
  | trainingFrame (n : Fin 88) (k : Fin 4) (w : BitVec 128) (wish : RxWish)
  | tapHandshakeTimeout (n : Fin 88) (k : Fin 4)
  | trainingDeadline (n : Fin 88)
  | idFrame (n : Fin 88) (f : IdFrame)
  | fenceAdvertisement (n : Fin 88) (part : Option (Fin 64))
  | autoRetrain (n : Fin 88)
  | data (n : Fin 88) (fec : FecWork) (f : Frame)
  | dataT (n : Fin 88) (fec : FecWork) (f : Frame)
  | idle (n : Fin 88) (fec : FecWork) (f : Frame)
  | ctrl (n : Fin 88) (fec : FecWork) (f : Frame)
  | recal (n : Fin 88) (fec : FecWork) (f : Frame)
  | restore (n : Fin 88) (fec : FecWork) (f : Frame)
  | degrade (n : Fin 88) (fec : FecWork) (f : Frame)
  | replayTimer (n : Fin 88)
  | laneFailure (n : Fin 88) (k : Fin 4) (cause : LaneCause)
  | degradeRepeat (n : Fin 88)
  | laneRetrainComplete (n : Fin 88) (k : Fin 4) (ok : Bool)
  | recalibrationStart (n : Fin 88) (k : Fin 4) (margin : BitVec 8) (tempMoved : Bool)
  | retrain (p : Path) (n : Fin 88)
  | portEn (p : Path) (n : Fin 88) (on : Bool)
  | loop (p : Path) (n : Fin 88) (mode : Fin 4)
  | testPattern (p : Path) (n : Fin 88) (v : Quad)
  -- host links and roles (13)
  | coalesceTimer (x : Fin 2) (r : Fin 256)
  | take (x : Fin 2)
  | autoTakeover
  | hostLinkDown (x : Fin 2)
  | hostLinkUp (x : Fin 2) (rate : Fin 4) (width : Fin 3)
  | perstN (x : Fin 2) (low : Bool)
  | functionLevelReset (x : Fin 2)
  | memoryApertureRead (x : Fin 2) (off : BitVec 36) (len : Nat)
  | memoryApertureWrite (x : Fin 2) (off : BitVec 36) (data : List Byte)
  | role (p : Path) (x : Fin 2)
  -- power and thermal (14, 20)
  | capHostWrite (p : Path) (v : Quad)
  | capRackWrite (p : Path) (v : Quad)
  | warnWrite (p : Path) (v : Quad)
  | orphanWrite (p : Path) (v : Quad)
  | heartbeat (p : Path) (v : Quad)
  | orphan
  | powerEstimate (watts : Nat) (fit : Fin 16) (hbmFit : Bool)
  | workingLimitUpdate (p10 : Nat) (policy : Option Nat)
  | estimateCalibration (power : Nat)
  | pmbusReadFailure
  | operatingPointChange (point : Fin 7) (fit : Fin 16)
  | avsbusTimeout
  | capUnmet
  | pwrWarnNAssert
  | pwrWarnNRelease
  | throttle (tj : BitVec 8) (sensor : Fin 64)
  | swSlow (temp : BitVec 8)
  | hbmHot (n : Fin 12) (temp : BitVec 8)
  | thermtrip
  | domainIdleEntry (d : Domain) (dest : DomState)
  | domainWake (d : Domain)
  | biasWrite (p : Path) (n : Fin 4) (v : Quad)
  -- the side-band port (17); `zeros` is bytes 5 and 7 of the message, which a request leaves zero
  | setdasa (addr : BitVec 7)
  | entdaa (addr : BitVec 7)
  | rstdaa
  | getpid
  | getbcr
  | getdcr
  | getstatus
  | enec
  | disec
  | mctpControl (msg : List Byte)
  | read (tag : Byte) (zeros : BitVec 16) (count : Byte) (addr : Quad)
  | write (tag : Byte) (zeros : BitVec 16) (count : Byte) (addr : Quad) (data : List Byte)
  | imageBegin (tag : Byte) (zeros : BitVec 16) (image : Byte) (total : Quad)
  | imageData (tag : Byte) (zeros : BitVec 16) (off : Quad) (data : List Byte)
  | imageEnd (tag : Byte) (zeros : BitVec 16) (image : Option Image)
  | gettid
  | settid (tid : Byte)
  | getpldmversion
  | getpldmtypes
  | getpldmcommands
  | getpdr (record : Nat)
  | getsensorreading (sensor : PldmSensor)
  | getstatesensorreadings (sensor : PldmSensor)
  | sensorRefresh
  | getMeasurements (nonce : List Byte)
  -- counters (18)
  | chainWrite (p : Path) (v : Quad)
  | countersClearCore (p : Path)
  | countersClearEpb (p : Path)
  | countersClearHbm (p : Path)
  | snap (p : Path) (islands : BitVec 4)
  | snapshotIslandCopy (i : Fin 4)
  | snapshotComplete
  -- core operations: the named core issues the bundle at its PC, which holds one of the row (05, 06)
  | intAlu (c : Fin 16) (k : Fin 8)
  | mul (c : Fin 16) (k : Fin 8)
  | mulhu (c : Fin 16) (k : Fin 8)
  | mulh (c : Fin 16) (k : Fin 8)
  | sel (c : Fin 16) (k : Fin 8)
  | aluImmediate (c : Fin 16) (k : Fin 8)
  | mov16 (c : Fin 16) (k : Fin 8)
  | mov16Z (c : Fin 16) (k : Fin 8)
  | ldSpm (c : Fin 16) (k : Fin 8)
  | ldPool (c : Fin 16) (k : Fin 8)
  | stSpm (c : Fin 16) (k : Fin 8)
  | stPool (c : Fin 16) (k : Fin 8)
  | fpArith (c : Fin 16) (k : Fin 8)
  | fpCompare (c : Fin 16) (k : Fin 8)
  | fcvtF32I64 (c : Fin 16) (k : Fin 8)
  | fcvtI64F32 (c : Fin 16) (k : Fin 8)
  | pset (c : Fin 16) (k : Fin 8)
  | pget (c : Fin 16) (k : Fin 8)
  | predLogic (c : Fin 16) (k : Fin 8)
  | pcnt (c : Fin 16) (k : Fin 8)
  | branch (c : Fin 16) (k : Fin 8)
  | bpany (c : Fin 16) (k : Fin 8)
  | bpnone (c : Fin 16) (k : Fin 8)
  | j (c : Fin 16) (k : Fin 8)
  | jal (c : Fin 16) (k : Fin 8)
  | jr (c : Fin 16) (k : Fin 8)
  | trap (c : Fin 16) (k : Fin 8)
  | csRd (c : Fin 16) (k : Fin 8)
  | csWr (c : Fin 16) (k : Fin 8)
  | wait (c : Fin 16) (k : Fin 8)
  | halt (c : Fin 16) (k : Fin 8)
  | stalledBundleIssue (c : Fin 16) (k : Fin 8)
  | vintAlu (c : Fin 16) (k : Fin 8)
  | vintMinmax (c : Fin 16) (k : Fin 8)
  | vcmpInt (c : Fin 16) (k : Fin 8)
  | vsel (c : Fin 16) (k : Fin 8)
  | vfpArith (c : Fin 16) (k : Fin 8)
  | vminmaxF32 (c : Fin 16) (k : Fin 8)
  | vcmpF32 (c : Fin 16) (k : Fin 8)
  | vdivVsqrt (c : Fin 16) (k : Fin 8)
  | vexp (c : Fin 16) (k : Fin 8)
  | vexpd (c : Fin 16) (k : Fin 8)
  | vcvtInt (c : Fin 16) (k : Fin 8)
  | vcvtBf16 (c : Fin 16) (k : Fin 8)
  | vcvtF16 (c : Fin 16) (k : Fin 8)
  | vcvtWiden (c : Fin 16) (k : Fin 8)
  | vred (c : Fin 16) (k : Fin 8)
  | vtmax (c : Fin 16) (k : Fin 8)
  | vtexp (c : Fin 16) (k : Fin 8)
  | vtsum (c : Fin 16) (k : Fin 8)
  | vtget (c : Fin 16) (k : Fin 8)
  | vtput (c : Fin 16) (k : Fin 8)
  | vld (c : Fin 16) (k : Fin 8)
  | vldBc (c : Fin 16) (k : Fin 8)
  | vst (c : Fin 16) (k : Fin 8)
  | vmovS (c : Fin 16) (k : Fin 8)
  | vext (c : Fin 16) (k : Fin 8)
  | mma (c : Fin 16) (k : Fin 8)
  | mscale (c : Fin 16) (k : Fin 8)
  | mst (c : Fin 16) (k : Fin 8)
  | wst (c : Fin 16) (k : Fin 8)
  | wld (c : Fin 16) (k : Fin 8)
  | wcvt (c : Fin 16) (k : Fin 8)
  | matrixOperationComplete (c : Fin 16) (k : Fin 8)
  | teIssue (c : Fin 16) (k : Fin 8)
  | teArm (c : Fin 16) (k : Fin 8)
  | teCnt (c : Fin 16) (k : Fin 8)
  | teErr (c : Fin 16) (k : Fin 8)
  | teWait (c : Fin 16) (k : Fin 8)
  | teXissue (c : Fin 16) (k : Fin 8)
  | rel (c : Fin 16) (k : Fin 8)
  | acq (c : Fin 16) (k : Fin 8)
  | barCfg (c : Fin 16) (k : Fin 8)
  | barArrive (c : Fin 16) (k : Fin 8)
  | barWait (c : Fin 16) (k : Fin 8)
  | barSync (c : Fin 16) (k : Fin 8)
  | fwait (c : Fin 16) (k : Fin 8)
  | fwaitConditionMet (c : Fin 16) (k : Fin 8)
  | fwaitLimitExpiry (c : Fin 16) (k : Fin 8)
  | wakeCore (c : Fin 16) (k : Fin 8)
  | watch (c : Fin 16) (k : Fin 8)
  -- events added after the rest of the table
  | switchReady (p10 : Nat)
  | hostPortReady (x : Fin 2) (cfg : PciCfg)
  | refclkCoreReturn
  | cdrLock (n : Fin 88) (k : Fin 4) (inverted : Bool)
  | alignmentLock (n : Fin 88) (k : Fin 4)
  | onDieClearComplete (zero : Bool)
  | parkedMoveComplete (cpn : BitVec 22) (readOk : Bool)
  | streamCarryRequest (e : Fin 16)
  | badFrame (n : Fin 88) (fec : FecWork)
  | msiXUnmask (x : Fin 2) (vector : Fin 2048)
  | jtagInstruction (i : JtagInstr)
  | noiseHealthPass
  | spdmNegotiation (request : List Byte)
  deriving DecidableEq, Repr

end Sys2Proof
end

