-- ==== Sys2Proof/Decode.lean ====
section
/-! DEFINITION. The decoder of table words. No row of the operation table gives its command any bits, so no word
spells a command. -/
namespace Sys2Proof

/-- The command a word of `nbits` bits spells by the table: none for any word. -/
def decodeTableWord (_nbits _w : Nat) : Option Instr := none

end Sys2Proof
end

