-- ==== Sys2Proof/Config.lean ====
section
/-! DEFINITION. What one package has of its own, and the free values: constants with no body, for what the manual
leaves open or what the hardware draws at random. Nothing can evaluate them. -/
namespace Sys2Proof.Config

/-- Free values of the machine, by the number of the draw (assumption 2). -/
opaque freeValue : Nat → Nat

/-- The Falcon-1024 public key derived from the PUF: 1,793 bytes (R426). -/
opaque publicKey : List Byte

/-- The identity record of the board SPI flash (R427). -/
opaque identityRecord : List Byte

/-- The Falcon-1024 signature of a digest, by the number of the draw that gives its randomness (R429, R433). -/
opaque falconSign : Nat → List Byte → List Byte

/-- Payloads the management processor's inbox holds beyond one, which the manual does not state (R105). -/
opaque inboxMore : Nat

/-- Requests beyond one for whose responses the management function has space at a time (R284). -/
opaque mgmtMore : Nat

/-- Payloads the inbox holds; R105 delivers a payload into it, so it holds at least one (DEDUCED, assumption 56). -/
def inboxSize : Nat := inboxMore + 1

/-- The PCI vendor ID of the device (R457). -/
opaque pciVendor : BitVec 16

/-- The provisioned ID, BCR and DCR of the I3C target (R455). -/
opaque i3cPid : List Byte
opaque i3cBcr : Byte
opaque i3cDcr : Byte
/-- The status word the I3C target answers to GETSTATUS, beyond what R455 states. -/
opaque i3cStatus : Nat → List Byte

/-- What PLDM puts before the value of a numeric and of a state sensor (R460). -/
opaque pldmNumericHead : List Byte
opaque pldmStateHead : List Byte

/-- What SPDM puts before the report in a MEASUREMENTS response (R461). -/
opaque spdmBlock : List Byte

/-- The bodies of MCTP control responses the MCTP specification defines and the manual does not (R456). -/
opaque mctpControlBody : List Byte → List Byte

/-- The PLDM answers whose content DSP0240 and DSP0248 lay down (R460): version, types, commands, PDRs. -/
opaque pldmVersion : List Byte
opaque pldmTypes : List Byte
opaque pldmCommands : List Byte
opaque pldmPdr : Nat → List Byte

/-- The SPDM messages whose content DSP0274 lays down, from the request (R461). -/
opaque spdmBody : List Byte → List Byte

/-- Cells of the boundary-scan register, which the manual does not count (R503). -/
opaque boundaryCells : Nat

end Sys2Proof.Config
end

