-- ==== Sys2Proof/Machine/Bits.lean ====
section
/-! DEFINITION. Bit fields, little-endian byte order (R11), saturating counts, and the sparse maps that hold
repeated units and memories in canonical form. -/
namespace Sys2Proof

/-- Bits [hi:lo] of `v` (R11: both ends included, bit 0 least significant). -/
def bits (v hi lo : Nat) : Nat := v / 2 ^ lo % 2 ^ (hi + 1 - lo)

/-- Bit `i` of `v`. -/
def bit (v i : Nat) : Bool := v / 2 ^ i % 2 == 1

/-- A one-bit field's value. -/
def b2n (b : Bool) : Nat := if b then 1 else 0

/-- A field value placed at bit `lo`. -/
def fld (lo v : Nat) : Nat := v * 2 ^ lo

/-- `n` bytes of `v`, little-endian (R11). -/
def leBytes : Nat → Nat → List Byte
  | 0, _ => []
  | n + 1, v => BitVec.ofNat 8 v :: leBytes n (v / 256)

/-- The value of little-endian bytes (R11). -/
def leVal : List Byte → Nat
  | [] => 0
  | b :: bs => b.toNat + 256 * leVal bs

/-- The little-endian value of `n` bytes at offset `i` of a byte string; bytes past its end read zero. -/
def leAt (bs : List Byte) (i n : Nat) : Nat := leVal ((bs.drop i).take n)

/-- `n` zero bytes. -/
def zeros (n : Nat) : List Byte := List.replicate n 0

/-- A byte string cut or zero-filled to `n` bytes. -/
def fitBytes (n : Nat) (bs : List Byte) : List Byte := bs.take n ++ zeros (n - bs.length)

/-- `bs` with the bytes `new` laid over it at offset `i`. -/
def patch (bs : List Byte) (i : Nat) (new : List Byte) : List Byte :=
  bs.take i ++ new ++ bs.drop (i + new.length)

/-- The two's-complement reading of the low `w` bits of `v`. -/
def toSigned (w v : Nat) : Int :=
  let u := v % 2 ^ w
  if u < 2 ^ (w - 1) then (u : Int) else (u : Int) - (2 ^ w : Nat)

/-- The low `w` bits of an integer, two's complement. -/
def ofInt (w : Nat) (i : Int) : Nat := (i % ((2 ^ w : Nat) : Int)).toNat

/-- A count that saturates at `mx`. -/
def satInc (mx c : Nat) : Nat := if c < mx then c + 1 else mx

/-- The 32-bit saturating counters of the setup registers. -/
def cnt32 (c : Nat) : Nat := satInc 0xFFFFFFFF c

/-- The 16-bit saturating counters. -/
def cnt16 (c : Nat) : Nat := satInc 0xFFFF c

/-- Are the two byte ranges disjoint? -/
def disjoint (a n b m : Nat) : Bool := a + n ≤ b || b + m ≤ a || n == 0 || m == 0

/-- Ceiling division. -/
def cdiv (a b : Nat) : Nat := (a + b - 1) / b

/-- The first index below `n`, from `i`, that satisfies `p`. -/
def findIdxFrom (p : Nat → Bool) : Nat → Nat → Option Nat
  | 0, _ => none
  | k + 1, i => if p i then some i else findIdxFrom p k (i + 1)

/-- The numbers below `n` that satisfy `p`. -/
def filterBelow (n : Nat) (p : Nat → Bool) : List Nat := (List.range n).filter p

/-- Is `p` true of some number below `n`? -/
def anyBelow (n : Nat) (p : Nat → Bool) : Bool := (List.range n).any p

/-- A mask from a list of bit numbers, each at most once. -/
def maskOf (l : List Nat) : Nat := l.foldl (fun m i => if bit m i then m else m + 2 ^ i) 0

/-- The bit numbers below `n` set in `m`. -/
def bitsOf (n m : Nat) : List Nat := filterBelow n (bit m)

/-- Replace the element at `i`, if there is one. -/
def modAt {α : Type} (f : α → α) : List α → Nat → List α
  | [], _ => []
  | x :: xs, 0 => f x :: xs
  | x :: xs, i + 1 => x :: modAt f xs i

/-- Remove the first element satisfying `p`, if there is one. -/
def takeFirst {α : Type} (p : α → Bool) : List α → Option (α × List α)
  | [] => none
  | x :: xs => if p x then some (x, xs) else (takeFirst p xs).map fun r => (r.1, x :: r.2)

/-- Replace the first element satisfying `p`. -/
def modFirst {α : Type} (p : α → Bool) (f : α → α) : List α → List α
  | [] => []
  | x :: xs => if p x then f x :: xs else x :: modFirst p f xs

/-- Read a sparse map; an unlisted key reads as the default `d`. -/
def SMap.get {α : Type} (d : α) : SMap α → Nat → α
  | [], _ => d
  | (k, v) :: m, i => if k = i then v else SMap.get d m i

/-- Write a sparse map, keeping the canonical form: a value equal to the default is not listed. -/
def SMap.set {α : Type} [DecidableEq α] (d : α) : SMap α → Nat → α → SMap α
  | [], k, v => if v = d then [] else [(k, v)]
  | (k', v') :: m, k, v =>
    if k < k' then (if v = d then (k', v') :: m else (k, v) :: (k', v') :: m)
    else if k = k' then (if v = d then m else (k, v) :: m)
    else (k', v') :: SMap.set d m k v

/-- Update one key of a sparse map. -/
def SMap.upd {α : Type} [DecidableEq α] (d : α) (m : SMap α) (k : Nat) (f : α → α) : SMap α :=
  SMap.set d m k (f (SMap.get d m k))

/-- Drop the entries of a sparse map that equal its default. -/
def canon {α : Type} [DecidableEq α] (d : α) (m : SMap α) : SMap α := m.filter fun q => decide (q.2 ≠ d)

/-- Apply a function to every entry of a sparse map. -/
def mapAll {α : Type} [DecidableEq α] (d : α) (f : α → α) (m : SMap α) : SMap α := canon d (m.map fun q => (q.1, f q.2))

/-- Every key of the map is above `lo`, the keys rise strictly, and no entry holds the default. -/
def SMap.wfFrom {α : Type} [DecidableEq α] (d : α) : Option Nat → SMap α → Bool
  | _, [] => true
  | lo, (k, v) :: m =>
    (match lo with | none => true | some l => decide (l < k)) && decide (v ≠ d) && SMap.wfFrom d (some k) m

/-- The canonical form of a sparse map. -/
def SMap.wf {α : Type} [DecidableEq α] (d : α) (m : SMap α) : Bool := SMap.wfFrom d none m

end Sys2Proof
end

