-- ==== Sys2Proof/Machine/TeTypes.lean ====
section
/-! DEFINITION. The state of the transfer engines and of the translation caches (02, 03, 04, 13). -/
namespace Sys2Proof.Machine

/-- Who issued a command: a submission ring, or a core by te.issue, te.arm or te.xissue (R198, R359). -/
inductive Origin where
  /-- `gen` counts the resets of the port (R380) -/
  | ring (port ring index gen : Nat)
  /-- Sillage, for one of its moves (R268, R269) -/
  | sill (move : Nat)
  /-- `gen` counts the starts of the core (R201); `x` marks te.xissue -/
  | core (cluster core queue : Nat) (x wake : Bool) (gen : Nat)
  deriving DecidableEq, Repr

/-- A translation a command has obtained: its DAS, the first virtual page of 2 MiB, the pages it covers, and the
leaf entry (R44). -/
structure Trans where
  das   : Nat
  page  : Nat
  count : Nat
  entry : Nat
  deriving DecidableEq, Repr

/-- What one packet of a command is doing. -/
inductive PktState where
  | unsent | outstanding (slot : Nat) | backoff (slot : Nat) | done (status : Nat)
  /-- answered, and its data waits for a host translation; `pri` says a Page Request has been sent (R54, R55) -/
  | landing (slot : Nat) (bytes : List Byte) (pri : Bool)
  deriving DecidableEq, Repr

/-- One packet of a remote command (R83, R91). -/
structure CmdPkt where
  /-- byte offset within the command; a carry has the offset of the store it precedes -/
  off   : Nat
  /-- the packet as built; TID, EP and HCRC are set when it is sent -/
  pkt   : Packet
  carry : Bool
  /-- it has been sent at least once -/
  sent  : Bool
  /-- HOLD_FULL answers so far (R106) -/
  tries : Nat
  state : PktState
  deriving DecidableEq, Repr

/-- Where a queued command stands. -/
inductive CmdPhase where
  /-- not yet started -/
  | queued
  /-- bound to a token that has not reached it (R169) -/
  | armed (token : Nat)
  /-- started, and waiting for a translation of this virtual page (R44) -/
  | walking (das page : Nat)
  /-- started, and waiting for this context page, met at this virtual page (R46) -/
  | pageWait (cpn das page : Nat)
  /-- started, and waiting for an ATS translation of this host page (R53) -/
  | ats (port page : Nat) (write : Bool)
  /-- started, and waiting for a Page Request Group Response (R54) -/
  | pri (port page : Nat) (write : Bool)
  /-- its packets are in the fabric, or Sillage works for it -/
  | running
  /-- ended with this status, and not yet reported (R113) -/
  | done (status : Nat)
  deriving DecidableEq, Repr

/-- A command in a TE queue. -/
structure TeCmd where
  id      : Nat
  origin  : Origin
  /-- the 64 bytes of the submission entry -/
  entry   : List Byte
  das     : Nat
  /-- the status a check at the taking gave it, if it failed there (R363) -/
  verdict : Option Nat
  /-- it has been started -/
  started : Bool
  phase   : CmdPhase
  trans   : List Trans
  pkts    : List CmdPkt
  result  : Nat
  detail  : Nat
  /-- failing address and translation entry DPA, for the fault record -/
  failAddr : Nat
  failDpa  : Nat
  /-- byte offset of the failure within the command -/
  failOff  : Nat
  /-- it holds a reservation in the measurement log (R378) -/
  reserved : Bool
  /-- the host port it reaches host memory through, that port's generation when it was taken, and its PASID (R368) -/
  hport   : Nat
  hgen    : Nat
  pasid   : Option Nat
  /-- the completion ring of a ring command, as it stood when the command was taken (R355, R359) -/
  cq      : Nat
  /-- matrix operations of the issuing core whose scratchpad writes the command must find landed (R112) -/
  mx      : Nat
  /-- bytes handed to it: those of a Sillage parity packet, or the CPNs a SILL_PREFETCH still waits for -/
  data    : List Byte
  /-- Sillage commands: CPNs done, and the first failing status among them (R264) -/
  cur     : Nat
  acc     : Nat
  deriving DecidableEq, Repr

/-- A TID slot (R84). -/
inductive Slot where
  | free | busy (cmd : Nat) (pkt : Nat) | quarantined
  deriving DecidableEq, Repr

/-- The source side of a stream (R118): counted stores since the last flagged packet, and the TIDs the gate
waits for. -/
structure SrcStream where
  count  : Nat
  /-- counted stores outstanding since the last flagged packet -/
  open_  : List Nat
  /-- counted stores closed by the last flagged packet and not yet acknowledged -/
  closed : List Nat
  /-- those of `closed` that the last flagged packet closed -/
  shut   : List Nat
  /-- the last flagged packet, if not yet acknowledged -/
  flag   : Option Nat
  deriving DecidableEq, Repr

/-- One transfer engine TE_t of a cluster. -/
structure Te where
  /-- the queue, oldest first, at most 256 commands -/
  queue : List TeCmd
  /-- number of the next command -/
  nextId : Nat
  slots : SMap Slot
  /-- the source it last took a command from: 0 its rings, 1 the cores of its cluster, 2 te.xissue (R359) -/
  turn  : Nat
  /-- the ring it last took a command from, as 256 port + ring -/
  lastRing : Nat
  /-- keyed 64 dnode + stag; multicast streams add 2^18 -/
  streams : SMap SrcStream
  /-- TE_FAULT_t: the 64-byte record of the stall, empty while not stalled (R372) -/
  fault : List Byte
  deriving DecidableEq, Repr

/-- An entry of a host port's ATC (R52, R53): a host page range of 2^log2 bytes. -/
structure AtcEntry where
  /-- the PASID its Translation Request carried -/
  pasid : Option Nat
  page  : Nat
  log2  : Nat
  read  : Bool
  write : Bool
  deriving DecidableEq, Repr

end Sys2Proof.Machine
end

