-- ==== Sys2Proof/Machine/CoreTypes.lean ====
section
/-! DEFINITION. The state of a compute core and of a cluster (05, 06). -/
namespace Sys2Proof.Machine

/-- A tile: its non-zero elements by 64 × row + column; accumulators hold FP32 bits, wide tiles 128-bit words. -/
abbrev Tile := SMap Nat

/-- A matrix operation issued and not yet finished: what it will write when it finishes (R145, R168). -/
structure MxOp where
  /-- accumulator tile written, with its new content -/
  acc    : Option (Nat × Tile)
  /-- wide tile written, with its new content -/
  wide   : Option (Nat × Tile)
  /-- SPM bytes written -/
  spm    : Option (Nat × List Byte)
  /-- token incremented -/
  token  : Option Nat
  /-- ASTAT bits it sets -/
  range  : Bool
  sat    : Bool
  nan    : Bool
  /-- performance counters it advances when it finishes -/
  counts : List (Nat × Nat)
  deriving DecidableEq, Repr

/-- Why a core stops: an exception (R186), halt, CORE_STOP (R371), or the entry into FENCED (R411). -/
inductive StopWay where
  | fault | halt | command | fence
  deriving DecidableEq, Repr

/-- Whether a core issues (R171, R186). -/
inductive CoreRun where
  /-- halted, or never started -/
  | halted
  /-- issuing -/
  | running
  /-- the bundle at PC is held back (R144, R145, R170, R203) -/
  | held
  /-- in wait, with the CMODE it entered under -/
  | waiting (mode : Nat)
  /-- woken from DOZE or PARK, and its domain still waking (R384) -/
  | waking
  /-- halts with this value of CORE_STOP_k once its matrix operations are complete (R186, R371) -/
  | stopping (value : Nat) (way : StopWay)
  deriving DecidableEq, Repr

/-- What an acquire must pair with: a pool granule, the core that released before the last store to it, and the
scope of that release (R132). -/
structure ScopeRec where
  granule : Nat
  agent   : Nat
  scope   : Nat
  deriving DecidableEq, Repr

/-- One compute core. -/
structure Core where
  run    : CoreRun
  pc     : Nat
  /-- instruction memory: the 128-bit bundle at each index (R178) -/
  imem   : SMap Nat
  spm    : Memory
  /-- s1 to s63; s0 is never listed (R183) -/
  s      : SMap Nat
  p      : SMap Nat
  /-- v0 to v31, lane i of register r at 64 r + i -/
  v      : SMap Nat
  /-- a0 to a3 and w0 to w3 -/
  a      : SMap Tile
  w      : SMap Tile
  tokens : SMap Nat
  cmode  : Nat
  /-- ASTAT -/
  exactRange : Bool
  sat    : Bool
  nan    : Bool
  parStop : Bool
  /-- CORE_STOP_k -/
  stop   : Nat
  /-- when the core-start command ran, ns -/
  started : Nat
  /-- starts of this core (R201) -/
  gen    : Nat
  /-- the wake pending bit (R172) -/
  wake   : Bool
  /-- the window watch (R204) -/
  watch  : Option Nat
  /-- CC_q for q = 0 to 7, and CCX at 8 -/
  cc     : SMap Nat
  /-- TEERR_q for q = 0 to 7, and TEERRX at 8 -/
  teErr  : SMap Nat
  /-- matrix operations in progress and waiting, at most two -/
  matrix : List MxOp
  /-- by barrier: 1 + the generation of this core's arrival not yet waited for (R202) -/
  arrival : SMap Nat
  /-- it has issued a bundle, or halted, since the last CORE_START (R371) -/
  issued  : Bool
  /-- the port whose ring issued the last CORE_START -/
  startPort : Nat
  /-- scope of the last release, 1 + SCOPE, not yet followed by a core-start; 0 for none -/
  released : Nat
  /-- the records of pool granules loaded since the last acquire (R132) -/
  loaded : List ScopeRec
  /-- the bundle held back holds a bar.sync whose arrival has been made (R202) -/
  barIn : Bool
  /-- SPM words, and bundles, that hold an error the code cannot correct (R148) -/
  spmBad : List Nat
  imemBad : List Nat
  /-- SPM words, and bundles, with an error of one bit (R148) -/
  spmCe  : List Nat
  imemCe : List Nat
  /-- a register or a tile has lost its parity, and the core has not stopped for it yet (R148) -/
  regBad : Bool
  deriving DecidableEq, Repr

/-- One barrier of a cluster sync unit (R202). -/
structure Barrier where
  mask    : Nat
  arrived : Nat
  gen     : Nat
  deriving DecidableEq, Repr

/-- One cluster. -/
structure Cluster where
  cores      : SMap Core
  tes        : SMap Te
  pool       : Memory
  /-- pool words that hold an error the code cannot correct -/
  poolBad    : List Nat
  /-- pool words with an error of one bit -/
  poolCe     : List Nat
  /-- DAS_SELECT.DAS -/
  dasSelect  : Nat
  /-- SCOPE_CHECK.COUNT -/
  scopeCheck : Nat
  /-- the scope-check table, oldest first, at most 256 -/
  scopes     : List ScopeRec
  barriers   : SMap Barrier
  /-- the translation cache, newest first, at most 1,024 -/
  tlb        : List Trans
  deriving DecidableEq, Repr

end Sys2Proof.Machine
end

