-- ==== Sys2Proof/Machine/EpbTypes.lean ====
section
/-! DEFINITION. The state of one end-point block: Lens, streams, hold buffer, Accord, collision queue and page
waits (02, 03, 04, 08, 09). -/
namespace Sys2Proof.Machine

/-- A Lens window descriptor (R58); BASE is kept as the address it stands for, bits [42:0]. -/
structure LensDesc where
  valid   : Bool
  paged   : Bool
  pool    : Bool
  size    : Nat
  rd      : Bool
  wr      : Bool
  at_     : Bool
  re      : Bool
  ownOnly : Bool
  owner   : Nat
  part    : Nat
  wgen    : Nat
  base    : Nat
  deriving DecidableEq, Repr

/-- A byte range in a target space: the pool of the endpoint, or device memory by DPA. -/
structure Seg where
  pool : Bool
  addr : Nat
  len  : Nat
  deriving DecidableEq, Repr

/-- A checked request waiting behind a write to one granule, with the bytes it addresses (R137). -/
structure Collided where
  pkt  : Packet
  segs : List Seg
  deriving DecidableEq, Repr

/-- A stream-table record (R121): its held flagged packet, if any, is kept whole, with the bytes it addresses. -/
structure StreamRec where
  snode  : Nat
  stag   : Nat
  landed : Nat
  held   : Option Collided
  broken : Bool
  deriving DecidableEq, Repr

/-- One partial an Accord session holds, as node (level, index) of the canonical tree (R98). -/
structure Partial where
  level   : Nat
  index   : Nat
  payload : List Byte
  deriving DecidableEq, Repr

/-- An open Accord session, or one whose root is formed and not yet written (R97 to R100). -/
structure Session where
  window : Nat
  pos    : Nat
  step   : Nat
  len    : Nat
  attr   : Nat
  cnt    : Nat
  /-- subtrees received, as (level, index) -/
  got    : List (Nat × Nat)
  held   : List Partial
  /-- the root, once formed -/
  root   : Option (List Byte)
  /-- the descriptor its first partial was accepted under -/
  desc   : LensDesc
  deriving DecidableEq, Repr

/-- A granule with a write in progress, and when that write ends, in thirds of a nanosecond (R135). -/
structure BusyGranule where
  pool   : Bool
  granule : Nat
  until3 : Nat
  deriving DecidableEq, Repr

/-- A request waiting for a context page (R265), with the descriptor it was accepted under (R68). -/
structure PageWait where
  pkt  : Packet
  cpn  : Nat
  desc : LensDesc
  deriving DecidableEq, Repr

/-- A cached paged-window entry (R61, R62). -/
structure LensCached where
  window : Nat
  page   : Nat
  entry  : Nat
  deriving DecidableEq, Repr

/-- One end-point block EPB_e with its receive buffer. -/
structure Epb where
  /-- LENS_w -/
  lens : SMap LensDesc
  /-- the port that last configured each window: 1 + port, 0 for none; by WINDOW_UPDATE and by register write -/
  byUpdate : SMap Nat
  byWrite : SMap Nat
  /-- when each window last took a switch point, 1 + ns; 0 for never (R69) -/
  switched : SMap Nat
  /-- cached paged-window entries, at most 256, newest first -/
  cache : List LensCached
  /-- packets handed over by the switch, oldest first -/
  rx : List Packet
  /-- cells of the receive buffer not yet returned, by VC (R304) -/
  rxCells : SMap Nat
  /-- cells whose credit R137 withholds, by VC -/
  withheld : SMap Nat
  /-- the stream table, at most 8,192 records -/
  streams : List StreamRec
  /-- Accord sessions, at most 64 -/
  sessions : List Session
  /-- granules with a write in progress -/
  busy : List BusyGranule
  /-- the collision queue, at most 256 packets -/
  collide : List Collided
  /-- requests waiting for a context page, at most 256 -/
  pageWait : List PageWait
  /-- ACCORD_TIMEOUT.US -/
  accordUs : Nat
  /-- ACCORD_NOTIFY -/
  notifyEn : Bool
  notifyBase : Nat
  lateResp : Nat
  hdrDrop : Nat
  holdFull : Nat
  brokenTimeouts : Nat
  brokenChecks : Nat
  collideStall : Nat
  /-- when the collision queue last became full, 1 + ns; 0 while it is not full -/
  fullSince : Nat
  deriving DecidableEq, Repr

end Sys2Proof.Machine
end

