-- ==== Sys2Proof/Machine/HostTypes.lean ====
section
/-! DEFINITION. The state of one host port: rings, doorbells, interrupts, roles and the memory aperture (13). -/
namespace Sys2Proof.Machine

/-- SQ_r, a submission ring; `tail` is the accepted tail (R357). -/
structure Sq where
  en      : Bool
  control : Bool
  log2    : Nat
  base    : Nat
  cluster : Nat
  te      : Nat
  cq      : Nat
  das     : Nat
  pasidEn : Bool
  pasid   : Nat
  head    : Nat
  tail    : Nat
  rejects : Nat
  dbRange : Bool
  stopped : Bool
  deriving DecidableEq, Repr

/-- CQ_r, a completion ring; `owed` counts the entries reserved for commands taken (R359), `unsig` the entries
since the last signal (R377). -/
structure Cq where
  en       : Bool
  log2     : Nat
  base     : Nat
  vector   : Nat
  irqEn    : Bool
  coalesce : Nat
  timer    : Nat
  tail     : Nat
  head     : Nat
  phase    : Bool
  dbRange  : Bool
  owed     : Nat
  unsig    : Nat
  deriving DecidableEq, Repr

/-- The EQ or the FQ; `seq` counts the records since the ring was enabled (R375). -/
structure Rq where
  en         : Bool
  log2       : Nat
  base       : Nat
  vector     : Nat
  irqEn      : Bool
  tail       : Nat
  head       : Nat
  phase      : Bool
  dbRange    : Bool
  overflowed : Bool
  overflow   : Nat
  seq        : Nat
  deriving DecidableEq, Repr

/-- An MSI-X table entry and its pending bit. -/
structure Msix where
  addr    : Nat
  data    : Nat
  masked  : Bool
  pending : Bool
  deriving DecidableEq, Repr

/-- Where a control command stands (R360). -/
inductive CtlPhase where
  | queued
  /-- started; `stage` and `arg` belong to the command -/
  | running (stage arg : Nat)
  deriving DecidableEq, Repr

/-- A control command taken and not yet completed. -/
structure CtlCmd where
  ring    : Nat
  /-- its key within the ring: the submission index, above it the count of ring enables when it was taken -/
  index   : Nat
  gen     : Nat
  entry   : List Byte
  verdict : Option Nat
  phase   : CtlPhase
  trans   : List Trans
  reserved : Bool
  /-- the packets its drain waits for, at its endpoint (R62, R68) -/
  waits   : List Packet
  /-- the TE commands its drain waits for, as (cluster, TE, id) (R49) -/
  cmds    : List (Nat × Nat × Nat)
  /-- the ring's completion ring, DAS and PASID, and the time, as they stood when it was taken (R355, R380, R382) -/
  cq      : Nat
  das     : Nat
  pasid   : Option Nat
  taken   : Nat
  deriving DecidableEq, Repr

/-- What the device has to send after the writes before it: a ring entry, or an MSI-X message (R53, R377). -/
inductive RingOut where
  | entry (pasid : Option Nat) (addr : Nat) (bytes : List Byte)
  | signal (vector : Nat)
  deriving DecidableEq, Repr

/-- A ring access that waits for a host translation, or with `pri` for a Page Request Group Response (R53, R54). -/
structure RingAsk where
  pasid : Option Nat
  page  : Nat
  write : Bool
  pri   : Bool
  deriving DecidableEq, Repr

/-- One host port HPx. -/
structure HostPort where
  /-- the port answers configuration requests and its aperture is reachable (R447) -/
  ready   : Bool
  /-- PERST_N_x is low -/
  perst   : Bool
  linkUp  : Bool
  rate    : Nat
  width   : Nat
  priMs   : Nat
  sq      : SMap Sq
  cq      : SMap Cq
  eq      : Rq
  fq      : Rq
  dbErr   : Nat
  main    : Bool
  allow   : Bool
  auto    : Bool
  hold    : Nat
  memEn   : Bool
  memBase : Nat
  msix    : SMap Msix
  /-- ATS Control Enable and PRI Enable of the port's configuration space -/
  atsEn   : Bool
  priEn   : Bool
  /-- Device Control 2, bits [4:0] (R55), and Power Management D3hot (R352) -/
  cto     : Nat
  d3hot   : Bool
  /-- AER: the first Unsupported Request since it was cleared, as (write, BAR4 offset) (R381) -/
  aer     : Option (Bool × Nat)
  /-- ring accesses that wait for the translation agent, and what waits behind the first of the writes -/
  ringAsks : List RingAsk
  ringOut : List RingOut
  /-- submission rings enabled so far, which keeps the keys of control commands apart (R355) -/
  enables : Nat
  /-- the ATC, at most 2,048 entries, newest first -/
  atc     : List AtcEntry
  /-- ATS Invalidate Requests whose completion is owed, as (tag, page, log2) -/
  inval   : List (Nat × Nat × Nat)
  /-- resets of the port (PERST_N, FLR) and link losses, which cut commands off from host memory (R380) -/
  gen     : Nat
  /-- the generation from which completions are discarded, after a PERST_N or FLR -/
  dropGen : Nat
  /-- control commands taken, oldest first, at most 64 in progress -/
  ctl     : List CtlCmd
  deriving DecidableEq, Repr

end Sys2Proof.Machine
end

