-- ==== Sys2Proof/Machine/PortTypes.lean ====
section
/-! DEFINITION. The state of one fabric port: its registers, lanes, link layer and receive side (12, R294 to R297). -/
namespace Sys2Proof.Machine

/-- Where a lane stands in training (R335); `idle` is electrical idle. -/
inductive LaneState where
  | idle | detect | cap | rate | tap | align | active
  deriving DecidableEq, Repr

/-- One lane of a port (LANE_k, TAPS_k, and the training handshake of R333 to R335). -/
structure Lane where
  /-- LANE_k.LOS -/
  los : Bool
  /-- LANE_k.LOL -/
  lol : Bool
  /-- LANE_k.LOCKED -/
  locked : Bool
  /-- LANE_k.POLARITY (R332) -/
  polarity : Bool
  /-- LANE_k.CORR_SYM, saturating at 24 bits -/
  corrSym : Nat
  /-- LANE_k.UNCORR_CW, saturating at 16 bits -/
  uncorrCw : Nat
  /-- LANE_k.MARGIN -/
  margin : Nat
  /-- TAPS_k, in 1/64 of full swing -/
  taps : Taps Int
  /-- training state of the lane -/
  ts : LaneState
  /-- the versions the peer's frames offer; 0 before CAP -/
  peerVers : Nat
  /-- the peer's receiver wants precoding from this transmitter -/
  precodeTx : Bool
  /-- this lane's receiver asks for precoding -/
  precodeReq : Bool
  /-- DONE received from the peer -/
  doneRx : Bool
  /-- DONE sent to the peer -/
  doneTx : Bool
  /-- the request this receiver holds -/
  req : Taps TapReq
  /-- the preset this receiver asks for -/
  presetReq : Nat
  /-- the request was answered, and the receiver waits for STAT 00 (R334 step 3) -/
  release : Bool
  /-- handshakes made -/
  handshakes : Nat
  /-- the status this transmitter sends -/
  stat : Taps TapStat
  /-- retraining tries since the lane failed (R344) -/
  tries : Nat
  /-- fast alignment markers follow every 256 codewords (R331, R344) -/
  fast : Bool
  /-- bytes this transmitter has put into the lane's FEC stream since its last alignment marker (R331) -/
  txBytes : Nat
  deriving DecidableEq, Repr

/-- A sequenced frame kept for replay (R341). -/
structure SentFrame where
  seq    : Nat
  type   : FrameType
  pstart : Nat
  pad    : Nat
  data   : List Byte
  deriving DecidableEq, Repr

/-- Data cut for one frame, waiting for its slot: PSTART, PAD and the bytes (R339). -/
structure Chunk where
  pstart : Nat
  pad    : Nat
  data   : List Byte
  deriving DecidableEq, Repr

/-- The STATE field of PORT_n.STATUS. -/
inductive PortState where
  | disabled | detect | cap | rate | tap | align | link | up | loop | test
  deriving DecidableEq, Repr

/-- The MODE of a transit grant (R295). -/
inductive TransitMode where
  | none | through | edge
  deriving DecidableEq, Repr

/-- A change of lanes agreed for a named SEQ (R344, R346). -/
structure WidthChange where
  atSeq    : Nat
  failed   : Nat
  deriving DecidableEq, Repr

/-- One fabric port PORT_n. -/
structure Port where
  /-- CTRL.EN -/
  en : Bool
  /-- CTRL.MAX_VER -/
  maxVer : Nat
  /-- CTRL.NO_PRECODE -/
  noPrecode : Bool
  /-- CTRL.AUTO_RETRAIN -/
  autoRetrain : Bool
  /-- CTRL.RECAL_EN -/
  recalEn : Bool
  /-- CTRL.LOOP -/
  loop : Nat
  /-- STATUS.STATE -/
  state : PortState
  /-- STATUS.VERSION -/
  version : Nat
  /-- STATUS.LANES, a mask -/
  lanesOn : Nat
  /-- STATUS.FAILED, the set F of R342, a mask -/
  failed : Nat
  /-- STATUS.WIRING_MISMATCH -/
  wiring : Bool
  /-- STATUS.TRAININGS -/
  trainings : Nat
  /-- STATUS.WIDTH_CHANGES -/
  widthChanges : Nat
  /-- PEER_POSITION -/
  peerPos : Nat
  /-- PEER_OFFSET -/
  peerOff : Nat
  /-- EVENT.DEGRADE -/
  evDegrade : Bool
  /-- EVENT.RESTORE -/
  evRestore : Bool
  /-- EVENT.MARGINAL -/
  evMarginal : Bool
  /-- EVENT.RETRAIN_FAIL -/
  evRetrainFail : Bool
  /-- LINK_ERR.REPLAYS -/
  replays : Nat
  /-- LINK_ERR.TIMER_REPLAYS -/
  timerReplays : Nat
  /-- LINK_ERR.CRC_ERR -/
  crcErr : Nat
  /-- lanes 0 to 3 -/
  lanes : SMap Lane
  /-- TEST.GEN -/
  testGen : Bool
  /-- TEST.CHK -/
  testChk : Bool
  /-- TEST.PATTERN -/
  testPattern : Nat
  /-- TEST.ERRORS -/
  testErrors : Nat
  /-- FENCE.FORCE -/
  force : Bool
  /-- FENCE.FENCED -/
  fenced : Bool
  /-- FENCE.PEER_VALID and FENCE.PEER_PART -/
  peerPart : Option Nat
  /-- TRANSIT.MODE -/
  tmode : TransitMode
  /-- TRANSIT.PART -/
  tpart : Nat
  /-- TRANSIT.OUT -/
  tout : Nat
  /-- FENCE_DROP_COUNT -/
  fenceDrop : Nat
  /-- sequence number of the last sequenced frame sent -/
  txSeq : Nat
  /-- sequence number of the last sequenced frame received in order -/
  rxSeq : Nat
  /-- this receiver asks for a replay (R341) -/
  askReplay : Bool
  /-- unacknowledged sequenced frames, oldest first, at most 1,024 -/
  retry : List SentFrame
  /-- cells returned per VC since UP, as this receiver counts them -/
  retCells : SMap Nat
  /-- the count of each VC last sent in a CCNT field -/
  sentCells : SMap Nat
  /-- the VC whose turn is next in the credit field (R340) -/
  cvcNext : Nat
  /-- the CCNT last accepted for each VC -/
  lastCcnt : SMap Nat
  /-- credits this sender holds, in cells of the peer -/
  credit : SMap Nat
  /-- bytes of a packet that continues in the next DATA frame -/
  rxPartD : List Byte
  /-- the same for DATA_T -/
  rxPartT : List Byte
  /-- the receiver skips to the next packet start of DATA frames (R339) -/
  skipD : Bool
  /-- the same for DATA_T -/
  skipT : Bool
  /-- packets received and not yet taken by the switch -/
  rx : List Packet
  /-- DATA chunks waiting for a frame -/
  txD : List Chunk
  /-- DATA_T chunks waiting for a reserved frame -/
  txT : List Chunk
  /-- number of the next frame in its period (R316) -/
  frameNo : Nat
  /-- the slot pattern of R316 is in force -/
  onDuty : Bool
  /-- a lane change agreed for the transmitter -/
  txChange : Option WidthChange
  /-- a lane change agreed for the receiver -/
  rxChange : Option WidthChange
  /-- DEGRADE is being repeated (R343) -/
  degrading : Bool
  /-- consecutive failed trainings (R337) -/
  failRun : Nat
  /-- an ID frame has been sent since LINK -/
  idSent : Bool
  /-- the reserves of the peer's ID frame received since LINK (R306) -/
  peerGmin : Option (List Nat)
  /-- the SEQ from which a resend in progress started, and when it ends, ns (R341) -/
  resendFrom : Nat
  resendUntil : Nat
  /-- a recalibration need (R346): the lane, and when the need arose, ns -/
  recalWant : Option (Nat × Nat)
  /-- the lane being recalibrated -/
  recalLane : Option Nat
  /-- when the DATA frames of the last 100 µs were sent, ns, newest first (R346) -/
  dataTimes : List Nat
  deriving DecidableEq, Repr

end Sys2Proof.Machine
end

