-- ==== Sys2Proof/Machine/SwitchTypes.lean ====
section
/-! DEFINITION. The state of the switch complex: tables, buffer, queues, Prism, combiner, shapers, policers and
telemetry (10, 11). -/
namespace Sys2Proof.Machine

/-- A routing-table entry ROUTE_v_s. -/
structure RouteEntry where
  valid : Bool
  dpos  : Nat
  adapt : Bool
  expl  : Bool
  next  : Nat
  order : Nat
  deriving DecidableEq, Repr

/-- A multicast-table entry MCAST_v_g. -/
structure McastEntry where
  valid  : Bool
  part   : Nat
  mcount : Nat
  loc    : Nat
  root   : Nat
  row    : Nat
  col    : Nat
  deriving DecidableEq, Repr

/-- The colour a policer gives a packet (R313, R322). -/
inductive Colour where
  | unpoliced | green | yellow | red
  deriving DecidableEq, Repr

/-- The cells of one stored packet: the input and VC charged, whether the shared pool bears the charge, the cell
count, and how many queued copies still use them (R301, R304). -/
structure Holding where
  input  : Nat
  vc     : Nat
  shared : Bool
  cells  : Nat
  refs   : Nat
  deriving DecidableEq, Repr

/-- A packet in an output queue. -/
structure QPkt where
  pkt     : Packet
  input   : Nat
  colour  : Colour
  /-- the cells it uses -/
  hold    : Nat
  /-- when it entered this switch, ns -/
  since   : Nat
  /-- when it entered this queue, ns -/
  queued  : Nat
  /-- cells in the queue when it entered -/
  depth   : Nat
  /-- combine record: headers of the packets merged into it, its own first (R292) -/
  merged  : List Header
  /-- its cells were found in conflict; it is discarded at the head (R308) -/
  doomed  : Bool
  /-- VC7 traffic of a THROUGH grant of this package (R295) -/
  transit : Bool
  deriving DecidableEq, Repr

/-- A merged packet handed to an endpoint, whose response is split among its sources (R293). -/
structure CombineRec where
  endpoint : Nat
  sources  : List Header
  deriving DecidableEq, Repr

/-- A gather record of a multicast store (R291). -/
structure GatherRec where
  snode   : Nat
  tid     : Nat
  /-- the request's header, from which the one answer is built (R103) -/
  req     : Header
  mcount  : Nat
  answers : Nat
  lowest  : Option Nat
  fails   : Nat
  deriving DecidableEq, Repr

/-- Parameters of a two-bucket shaper or policer: rates in 0.25 GB/s, depths in 256 bytes. -/
structure BucketCfg where
  en : Bool
  cr : Nat
  pr : Nat
  cb : Nat
  pb : Nat
  deriving DecidableEq, Repr

/-- A shaper or policer: parameters, the two byte counts in quarter bytes, when they were last brought up to
date, and a checked write waiting for its commit (R309, R312, R313). -/
structure Bucket where
  cfg    : BucketCfg
  c      : Int
  p      : Int
  upto   : Nat
  commit : Option BucketCfg
  deriving DecidableEq, Repr

/-- QSAMPLE_o_v. -/
structure QSample where
  depth : Nat
  peak  : Nat
  delay : Nat
  deriving DecidableEq, Repr

/-- CMAP_e, one congestion-map entry. -/
structure CMap where
  reqOcc   : Nat
  rspOcc   : Nat
  noCredit : Nat
  maxDelay : Nat
  detours  : Nat
  live     : Nat
  deriving DecidableEq, Repr

/-- What accumulates for a congestion-map entry over the running period: cell-nanoseconds and nanoseconds. -/
structure CAcc where
  req      : Nat
  rsp      : Nat
  noCredit : Nat
  maxDelay : Nat
  detours  : Nat
  upto     : Nat
  deriving DecidableEq, Repr

/-- SWITCH.MIRROR_CFG. -/
structure MirrorCfg where
  en      : Bool
  n       : Nat
  trunc   : Nat
  all     : Bool
  input   : Nat
  vcmask  : Nat
  redOnly : Bool
  deriving DecidableEq, Repr

/-- The switch complex. -/
structure Switch where
  /-- the switch clock runs and the switch is ready (R447) -/
  ready : Bool
  /-- EPOCH.CURRENT -/
  epoch : Nat
  /-- EPOCH.DRAINED -/
  drained : Bool
  /-- ROUTE_CFG.FIXED -/
  fixed : Bool
  /-- ROUTE_CFG.DETOUR_THRESH -/
  detour : Nat
  /-- the five counters of R298 -/
  noRoute : Nat
  hopLimit : Nat
  hdrErr : Nat
  ageDrop : Nat
  downDrop : Nat
  /-- EVENT[5:0] -/
  evNoRoute : Bool
  evHopLimit : Bool
  evPortDown : Bool
  evPortUp : Bool
  evWiring : Bool
  evAge : Bool
  /-- EVENT.PORT -/
  evPort : Nat
  /-- ROUTE_v_s, keyed 256 v + s -/
  routes : SMap RouteEntry
  /-- MCAST_v_g, keyed 4096 v + g -/
  mcast : SMap McastEntry
  /-- GMIN_v -/
  gmin : SMap Nat
  /-- BUF_CFG -/
  inLimit : Nat
  yellowFloor : Nat
  /-- cells on the free list (BUF_STATUS.FREE) -/
  free : Nat
  /-- cells charged to the shared pool (BUF_STATUS.SHARED_USED) -/
  sharedUsed : Nat
  /-- shared cells charged per input -/
  inShared : SMap Nat
  /-- reserve cells charged, keyed 8 i + v -/
  inResv : SMap Nat
  /-- holdings by number -/
  holdings : SMap (Option Holding)
  /-- the next holding number -/
  nextHold : Nat
  /-- the 832 output queues, keyed 8 o + v, oldest first -/
  queues : SMap (List QPkt)
  /-- round-robin pointer of each output queue: the input served last -/
  rr : SMap Nat
  /-- consecutive grants each VC of an output was passed over -/
  passed : SMap Nat
  /-- when each output queue last became empty, ns -/
  emptied : SMap Nat
  /-- packets waiting at the attachment inputs, by endpoint -/
  attachIn : SMap (List Packet)
  /-- endpoint attachments taken down, a mask (R277) -/
  attachDown : Nat
  /-- combine records in use -/
  combines : List CombineRec
  /-- gather records in use -/
  gathers : List GatherRec
  /-- AUDIT -/
  auditCell : Nat
  passes : Nat
  leaked : Nat
  conflict : Nat
  leakEv : Bool
  conflictEv : Bool
  /-- cells found neither free nor held in the last pass -/
  suspects : List Nat
  /-- SHAPE_o_v, keyed 8 o + v -/
  shapers : SMap Bucket
  /-- POL_i_c, keyed 2 i + c -/
  policers : SMap Bucket
  /-- QOS_CFG.IDLE_US -/
  idleUs : Nat
  /-- TRANSIT_CFG -/
  tperiod : Nat
  tslots : Nat
  /-- SAMPLE_CFG.PERIOD_US -/
  sampleUs : Nat
  /-- QSAMPLE_o_v, keyed 8 o + v -/
  qsample : SMap QSample
  /-- MIRROR_CFG and the match count -/
  mirror : MirrorCfg
  matched : Nat
  /-- the Mirror queue, at most 1,024 records -/
  mirrorQ : List (List Byte)
  /-- MIRROR_SKIP -/
  mirrorSkip : Nat
  /-- CMAP_CFG -/
  cmapUs : Nat
  cmapSeq : Nat
  /-- CMAP_e and its running accumulation -/
  cmap : SMap CMap
  cacc : SMap CAcc
  /-- when the running map period began, ns -/
  cmapFrom : Nat
  deriving DecidableEq, Repr

end Sys2Proof.Machine
end

