-- ==== Sys2Proof/Machine/State.lean ====
section
/-! DEFINITION. The state of the package: its units, the commands waiting, what has left the package, and the state
after reset. -/
namespace Sys2Proof.Machine

/-- Something the package sends to the outside. -/
inductive Output where
  /-- a posted write to the host memory behind a port, with its PASID -/
  | hostWrite (x : Nat) (pasid : Option Nat) (addr : Nat) (data : List Byte)
  /-- a read of host memory -/
  | hostRead (x : Nat) (pasid : Option Nat) (addr len : Nat)
  /-- an MSI-X message (R377) -/
  | msix (x vector addr data : Nat)
  /-- an ATS Translation Request (R53) -/
  | atsRequest (x : Nat) (pasid : Option Nat) (page : Nat) (write : Bool)
  /-- a Page Request (R54) -/
  | pageRequest (x : Nat) (pasid : Option Nat) (page : Nat) (write : Bool)
  /-- an ATS Invalidate Completion (R55) -/
  | invalDone (x tag : Nat)
  /-- the data of a memory-aperture read, or an Unsupported Request (R381) -/
  | apertureData (x off : Nat) (data : List Byte)
  | apertureUr (x off : Nat)
  /-- the quadwords a register read returned -/
  | regData (p : Path) (addr : Nat) (data : List Byte)
  /-- a link frame on the lanes of the mask -/
  | frame (n lanes : Nat) (type : FrameType) (f : Frame)
  /-- a training frame on one lane, as its 128 bits (R333) -/
  | train (n k : Nat) (w : BitVec 128)
  /-- an alignment marker on one lane: its lane offset, port offset and parity (R331) -/
  | marker (n k portOff parity : Nat)
  /-- a test pattern on every lane of a port, and its end (R348) -/
  | pattern (n code : Nat) (on : Bool)
  /-- an ID frame, and a fence advertisement -/
  | ident (n : Nat) (f : IdFrame)
  | advert (n : Nat) (part : Option Nat)
  /-- a frame returned to the peer in the LOOP state (R347) -/
  | looped (n : Nat) (type : FrameType) (f : Frame)
  /-- an MCTP message to the bus owner -/
  | mctp (msg : List Byte)
  /-- the data of an I3C common command, and an in-band interrupt -/
  | i3c (data : List Byte)
  | ibi
  /-- what JTAG shifts out, and over how many bits -/
  | jtag (bits len : Nat)
  /-- an HBM refresh of a stack -/
  | refresh (n : Nat)
  /-- an AVSBus command to the operating point's voltage, and the commands that clear an expansion device -/
  | avs (point : Nat)
  /-- the compute clock is set to the frequency of an operating point (R390) -/
  | clock (point : Nat)
  | xpClear (n method : Nat)
  deriving DecidableEq, Repr

/-- Why a command stops with a fault: the manual gives every command an effect, so no command faults and there is no
reason to name. -/
inductive Fault where
  deriving DecidableEq, Repr

/-- Why a command is refused. -/
inductive Refusal where
  /-- Raised by an arm whose command has no meaning yet. Safe: nothing is claimed of it. -/
  | notModelled (mnemonic : String)
  deriving DecidableEq, Repr

/-- The package. Repeated units are sparse maps whose default is the unit's reset state. -/
structure State where
  /-- commands waiting, first in first out -/
  pending : List Instr
  /-- nanoseconds since the model began; an idle step adds one -/
  now : Nat
  /-- free values drawn so far (the model's own field) -/
  free : Nat
  /-- what has left the package, newest first -/
  out : List Output
  boot : Boot
  glob : Global
  hosts : SMap HostPort
  sw : Switch
  ports : SMap Port
  epbs : SMap Epb
  clusters : SMap Cluster
  /-- tier 0 by DPA -/
  dev : Memory
  /-- tier-0 granules that hold an uncorrectable error, by granule number -/
  ue : List Nat
  /-- tier-0 granules that hold an error the controller can correct, by granule number (R253) -/
  ce : List Nat
  hbms : SMap Hbm
  xps : SMap Xp
  sill : Sillage
  power : Power
  sealCore : Seal
  mgmt : Mgmt
  sb : Sideband
  cnt : Counters
  deriving DecidableEq, Repr

/-- Five taps alike. -/
def Taps.all {α : Type} (a : α) : Taps α := { m3 := a, m2 := a, m1 := a, c0 := a, p1 := a }

def Lane.reset : Lane where
  los := true
  lol := true
  locked := false
  polarity := false
  corrSym := 0
  uncorrCw := 0
  margin := 0
  taps := { m3 := 0, m2 := 0, m1 := 0, c0 := 64, p1 := 0 }
  ts := .idle
  peerVers := 0
  precodeTx := false
  precodeReq := false
  doneRx := false
  doneTx := false
  req := Taps.all .hold
  presetReq := 0
  release := false
  handshakes := 0
  stat := Taps.all .notUpdated
  tries := 0
  fast := false
  txBytes := 0

def Port.reset : Port where
  en := true
  maxVer := 3
  noPrecode := false
  autoRetrain := true
  recalEn := true
  loop := 0
  state := .disabled
  version := 0
  lanesOn := 0
  failed := 0
  wiring := false
  trainings := 0
  widthChanges := 0
  peerPos := 0xFF
  peerOff := 0xFF
  evDegrade := false
  evRestore := false
  evMarginal := false
  evRetrainFail := false
  replays := 0
  timerReplays := 0
  crcErr := 0
  lanes := []
  testGen := false
  testChk := false
  testPattern := 0
  testErrors := 0
  force := false
  fenced := true
  peerPart := none
  tmode := .none
  tpart := 0
  tout := 0
  fenceDrop := 0
  txSeq := 0
  rxSeq := 0
  askReplay := false
  retry := []
  retCells := []
  sentCells := []
  cvcNext := 0
  lastCcnt := []
  credit := []
  rxPartD := []
  rxPartT := []
  skipD := false
  skipT := false
  rx := []
  txD := []
  txT := []
  frameNo := 0
  onDuty := false
  txChange := none
  rxChange := none
  degrading := false
  failRun := 0
  idSent := false
  peerGmin := none
  resendFrom := 0
  resendUntil := 0
  recalWant := none
  recalLane := none
  dataTimes := []

def RouteEntry.reset : RouteEntry where
  valid := false
  dpos := 0
  adapt := false
  expl := false
  next := 0
  order := 0

def McastEntry.reset : McastEntry where
  valid := false
  part := 0
  mcount := 0
  loc := 0
  root := 0
  row := 0
  col := 0

def BucketCfg.reset : BucketCfg where
  en := false
  cr := 0
  pr := 0
  cb := 0
  pb := 0

def Bucket.reset : Bucket where
  cfg := BucketCfg.reset
  c := 0
  p := 0
  upto := 0
  commit := none

def QSample.reset : QSample where
  depth := 0
  peak := 0
  delay := 0

def CMap.reset : CMap where
  reqOcc := 0
  rspOcc := 0
  noCredit := 0
  maxDelay := 0
  detours := 0
  live := 0

def CAcc.reset : CAcc where
  req := 0
  rsp := 0
  noCredit := 0
  maxDelay := 0
  detours := 0
  upto := 0

/-- Reset reserve of a VC: 17 cells for VC0 and VC7, else 24 (R302). -/
def gminReset (v : Nat) : Nat := if v == 0 || v == 7 then 17 else 24

def Switch.reset : Switch where
  ready := false
  epoch := 0
  drained := true
  fixed := false
  detour := 64
  noRoute := 0
  hopLimit := 0
  hdrErr := 0
  ageDrop := 0
  downDrop := 0
  evNoRoute := false
  evHopLimit := false
  evPortDown := false
  evPortUp := false
  evWiring := false
  evAge := false
  evPort := 0
  routes := []
  mcast := []
  gmin := (List.range 8).map fun v => (v, gminReset v)
  inLimit := 16384
  yellowFloor := 65536
  free := 262144
  sharedUsed := 0
  inShared := []
  inResv := []
  holdings := []
  nextHold := 0
  queues := []
  rr := []
  passed := []
  emptied := []
  attachIn := []
  attachDown := 0
  combines := []
  gathers := []
  auditCell := 0
  passes := 0
  leaked := 0
  conflict := 0
  leakEv := false
  conflictEv := false
  suspects := []
  shapers := []
  policers := []
  idleUs := 10
  tperiod := 32
  tslots := 4
  sampleUs := 10
  qsample := []
  mirror := { en := false, n := 1024, trunc := 0, all := true, input := 0, vcmask := 0x7F, redOnly := false }
  matched := 0
  mirrorQ := []
  mirrorSkip := 0
  cmapUs := 1000
  cmapSeq := 0
  cmap := []
  cacc := []
  cmapFrom := 0

def LensDesc.reset : LensDesc where
  valid := false
  paged := false
  pool := false
  size := 0
  rd := false
  wr := false
  at_ := false
  re := false
  ownOnly := false
  owner := 0
  part := 0
  wgen := 0
  base := 0

def Epb.reset : Epb where
  lens := []
  byUpdate := []
  byWrite := []
  switched := []
  cache := []
  rx := []
  rxCells := []
  withheld := []
  streams := []
  sessions := []
  busy := []
  collide := []
  pageWait := []
  accordUs := 1000
  notifyEn := false
  notifyBase := 0
  lateResp := 0
  hdrDrop := 0
  holdFull := 0
  brokenTimeouts := 0
  brokenChecks := 0
  collideStall := 0
  fullSince := 0

def SrcStream.reset : SrcStream where
  count := 0
  open_ := []
  closed := []
  shut := []
  flag := none

def Te.reset : Te where
  queue := []
  nextId := 0
  slots := []
  turn := 0
  lastRing := 0
  streams := []
  fault := []

def Sq.reset : Sq where
  en := false
  control := false
  log2 := 4
  base := 0
  cluster := 0
  te := 0
  cq := 0
  das := 0
  pasidEn := false
  pasid := 0
  head := 0
  tail := 0
  rejects := 0
  dbRange := false
  stopped := false

def Cq.reset : Cq where
  en := false
  log2 := 4
  base := 0
  vector := 0
  irqEn := false
  coalesce := 1
  timer := 0
  tail := 0
  head := 0
  phase := true
  dbRange := false
  owed := 0
  unsig := 0

def Rq.reset : Rq where
  en := false
  log2 := 4
  base := 0
  vector := 0
  irqEn := false
  tail := 0
  head := 0
  phase := true
  dbRange := false
  overflowed := false
  overflow := 0
  seq := 0

/-- MSI-X entries are masked after reset, as the PCIe specification the manual names has it (assumption 14). -/
def Msix.reset : Msix where
  addr := 0
  data := 0
  masked := true
  pending := false

/-- A host port after reset; HP0 holds the main role (R379). -/
def HostPort.reset : HostPort where
  ready := false
  perst := true
  linkUp := false
  rate := 0
  width := 0
  priMs := 10
  sq := []
  cq := []
  eq := Rq.reset
  fq := Rq.reset
  dbErr := 0
  main := false
  allow := false
  auto := true
  hold := 100
  memEn := false
  memBase := 0
  msix := []
  atsEn := false
  priEn := false
  cto := 0
  d3hot := false
  aer := none
  ringAsks := []
  ringOut := []
  enables := 0
  atc := []
  inval := []
  gen := 0
  dropGen := 0
  ctl := []

def Hbm.reset : Hbm where
  ready := false
  fail := false
  period := 10
  passes := 0
  ueCount := 0
  lastUe := 0
  scrubPos := 0
  refreshes := 0
  temp := 0
  hot := false

def Xp.reset : Xp where
  linkUp := false
  rate := 0
  narrow := false
  fell := false
  devReady := false
  reported := 0
  en := false
  tier := 0
  direct := 0
  mem := []
  poison := []

def Sillage.reset : Sillage where
  en := false
  cluster := 0
  te := 7
  agePeriod := 1000
  low := 1024
  high := 2048
  cptBase := 0
  cptLog2 := 10
  pgtBase := 0
  pgtLog2 := 0
  wearBase := 0
  wearDelta := 128
  first := 0
  last := 0
  waitExpired := 0
  frames := []
  parkUsed := []
  prefetch := []
  prefWait := []
  moves := []
  nextMove := 0
  evicting := false

def Core.reset : Core where
  run := .halted
  pc := 0
  imem := []
  spm := []
  s := []
  p := []
  v := []
  a := []
  w := []
  tokens := []
  cmode := 0
  exactRange := false
  sat := false
  nan := false
  parStop := false
  stop := 0
  started := 0
  gen := 0
  wake := false
  watch := none
  cc := []
  teErr := []
  matrix := []
  arrival := []
  issued := false
  startPort := 0
  released := 0
  loaded := []
  barIn := false
  spmBad := []
  imemBad := []
  spmCe := []
  imemCe := []
  regBad := false

def Barrier.reset : Barrier where
  mask := 0
  arrived := 0
  gen := 0

def Cluster.reset : Cluster where
  cores := []
  tes := []
  pool := []
  poolBad := []
  poolCe := []
  dasSelect := 0
  scopeCheck := 0
  scopes := []
  barriers := []
  tlb := []

/-- BIAS_s after power-up (R389): BBN and BBP, RA, WA and RET for FULL, TRIM, DOZE and PARK. -/
def biasReset (i : Nat) : Nat :=
  match i with
  | 0 => 0x22 + fld 8 1 + fld 11 1
  | 1 => 0x00 + fld 8 2 + fld 11 2
  | 2 => 0xCC + fld 14 3
  | _ => 0x88 + fld 14 5

def Power.reset : Power where
  running := false
  bias := (List.range 4).filterMap fun i => if biasReset i = 0 then none else some (i, biasReset i)
  limit := 0
  estimate := 0
  p10 := 0
  power := 0
  oppt := 0
  duty := 16
  hbmIssue := 0
  clamp := false
  capUnmet := false
  warn := false
  orphan := false
  throttle := false
  swSlow := false
  capHost := none
  capRack := none
  warnCap := 1000
  warnDuty := 3
  warnCount := 0
  orphanCap := 1000
  policy := none
  silence := 20
  armed := false
  beat0 := 0
  beat1 := 0
  tjMax := 0
  sensor := 0
  throttleC := 100
  evCapUnmet := false
  evWarn := false
  evOrphan := false
  evThrottle := false
  evSwSlow := false
  evHbmHot := false
  hbmPark := 0
  poolUs := 50
  target := none
  avsFail := false
  pmbusFail := false
  fitSince := 0
  thermalRung := 0
  domains := (List.range 4).map fun n => (261 + n, .off)
  applied := (List.range 4).map fun n => (261 + n, 0)

def Image.reset : Image where
  digest := []
  svn := 0

def Mbox.reset : Mbox where
  req := []
  busy := false
  status := 0
  rsp := []

def Seal.reset : Seal where
  ready := false
  ident := false
  identFail := false
  noiseFail := false
  conf := false
  log := []
  blocked := 0
  mbox := []
  jobs := []
  method := 0
  limitS := 3600
  phase := 0
  portsDone := 0
  percent := 0
  result := 0
  seq := 0
  run := { methods := 0, t0Bytes := 0, t1Bytes := 0, t2Bytes := 0 }
  certs := []
  sealImage := Image.reset
  stewardImage := Image.reset
  bnonce := []

def Mgmt.reset : Mgmt where
  up := false
  beats := 0
  restarts := 0
  cause := 0
  restarted := false
  restarting := false
  rx := []
  held := []
  inbox := []
  answers := []
  tid := 0
  sensors := []
  relay := none

def Sideband.reset : Sideband where
  daddr := 0
  eid := 0
  discard := 0
  ibi := false
  delivery := none

def Boot.reset : Boot where
  out := false
  rstN := false
  refclk := true
  thermtrip := false
  state := 0
  source := false
  copy := false
  early := 0
  bistDone := false
  code := 0
  fault := 0
  enabled := 0
  pass := 0
  epbReady := 0
  counters := false

def Counter.reset : Counter where
  value := 0
  ovf := false

def Counters.reset : Counters where
  core := []
  epb := []
  hbm := []
  port := []
  coreSnap := []
  epbSnap := []
  hbmSnap := []
  portSnap := []
  user := 0
  chain := 0
  busy := false
  todo := 0
  seq := 0
  times := []

def MgrEntry.reset : MgrEntry where
  node := 0
  valid := false

def Global.reset : Global where
  position := 0
  positionValid := false
  slot := 0
  slotValid := false
  part := none
  sealed_ := false
  mgrReject := 0
  mgrs := []
  accessErr := { count := 0, addr := 0, source := 0, write := false }
  roUs := 40
  holdUs := 40
  replaySeq := 0
  state := .unconfigured
  clearWait := false
  refused := false
  changes := 0
  dasValid := []
  dasRoot := []
  heldRecords := []
  staged := []

/-- The machine right after power-up, with RST_N still low: every register at its after-power-up value, no unit
ready, every memory zero (R150, R256, R446). -/
def State.reset : State where
  pending := []
  now := 0
  free := 0
  out := []
  boot := Boot.reset
  glob := Global.reset
  hosts := [(0, { HostPort.reset with main := true })]
  sw := Switch.reset
  ports := []
  epbs := []
  clusters := []
  dev := []
  ue := []
  ce := []
  hbms := []
  xps := []
  sill := Sillage.reset
  power := Power.reset
  sealCore := Seal.reset
  mgmt := Mgmt.reset
  sb := Sideband.reset
  cnt := Counters.reset

end Sys2Proof.Machine
end

