-- ==== Sys2Proof/Machine/Ops.lean ====
section
/-! DEFINITION. The named operations every meaning is written over: the unit accessors, memory reads and writes, free
values, and the outcomes of a command. -/
namespace Sys2Proof.Machine

/-! ### Outcomes -/

/-- Every command's own outcome type. -/
abbrev Out := Host.Outcome State Fault Refusal

/-- Two effects, one after the other. -/
def both (f g : State → State) (s : State) : State := g (f s)

/-- An effect for each element of a list, in order. -/
def forEach {α : Type} (l : List α) (f : α → State → State) (s : State) : State :=
  l.foldl (fun s a => f a s) s

/-- An effect that happens only under a condition. -/
def onlyIf (b : Bool) (f : State → State) (s : State) : State := if b then f s else s

/-! ### Units -/

def State.port (s : State) (n : Nat) : Port := SMap.get Port.reset s.ports n
def State.epb (s : State) (e : Nat) : Epb := SMap.get Epb.reset s.epbs e
def State.cluster (s : State) (c : Nat) : Cluster := SMap.get Cluster.reset s.clusters c
def State.host (s : State) (x : Nat) : HostPort := SMap.get HostPort.reset s.hosts x
def State.hbm (s : State) (n : Nat) : Hbm := SMap.get Hbm.reset s.hbms n
def State.xp (s : State) (n : Nat) : Xp := SMap.get Xp.reset s.xps n
def Cluster.core (cl : Cluster) (k : Nat) : Core := SMap.get Core.reset cl.cores k
def Cluster.te (cl : Cluster) (t : Nat) : Te := SMap.get Te.reset cl.tes t
def State.core (s : State) (c k : Nat) : Core := (s.cluster c).core k
def State.te (s : State) (c t : Nat) : Te := (s.cluster c).te t
def HostPort.sqAt (h : HostPort) (r : Nat) : Sq := SMap.get Sq.reset h.sq r
def HostPort.cqAt (h : HostPort) (r : Nat) : Cq := SMap.get Cq.reset h.cq r

def State.modPort (n : Nat) (f : Port → Port) (s : State) : State :=
  { s with ports := SMap.upd Port.reset s.ports n f }
def State.modEpb (e : Nat) (f : Epb → Epb) (s : State) : State :=
  { s with epbs := SMap.upd Epb.reset s.epbs e f }
def State.modCluster (c : Nat) (f : Cluster → Cluster) (s : State) : State :=
  { s with clusters := SMap.upd Cluster.reset s.clusters c f }
def State.modHost (x : Nat) (f : HostPort → HostPort) (s : State) : State :=
  { s with hosts := SMap.upd HostPort.reset s.hosts x f }
def State.modHbm (n : Nat) (f : Hbm → Hbm) (s : State) : State :=
  { s with hbms := SMap.upd Hbm.reset s.hbms n f }
def State.modXp (n : Nat) (f : Xp → Xp) (s : State) : State :=
  { s with xps := SMap.upd Xp.reset s.xps n f }
def Cluster.modCore (k : Nat) (f : Core → Core) (cl : Cluster) : Cluster :=
  { cl with cores := SMap.upd Core.reset cl.cores k f }
def Cluster.modTe (t : Nat) (f : Te → Te) (cl : Cluster) : Cluster :=
  { cl with tes := SMap.upd Te.reset cl.tes t f }
def State.modCore (c k : Nat) (f : Core → Core) (s : State) : State := s.modCluster c (Cluster.modCore k f)
def State.modTe (c t : Nat) (f : Te → Te) (s : State) : State := s.modCluster c (Cluster.modTe t f)
def State.modSq (x r : Nat) (f : Sq → Sq) (s : State) : State :=
  s.modHost x fun h => { h with sq := SMap.upd Sq.reset h.sq r f }
def State.modCq (x r : Nat) (f : Cq → Cq) (s : State) : State :=
  s.modHost x fun h => { h with cq := SMap.upd Cq.reset h.cq r f }

def State.modSw (f : Switch → Switch) (s : State) : State := { s with sw := f s.sw }
def State.modGlob (f : Global → Global) (s : State) : State := { s with glob := f s.glob }
def State.modBoot (f : Boot → Boot) (s : State) : State := { s with boot := f s.boot }
def State.modPower (f : Power → Power) (s : State) : State := { s with power := f s.power }
def State.modSeal (f : Seal → Seal) (s : State) : State := { s with sealCore := f s.sealCore }
def State.modMgmt (f : Mgmt → Mgmt) (s : State) : State := { s with mgmt := f s.mgmt }
def State.modSb (f : Sideband → Sideband) (s : State) : State := { s with sb := f s.sb }
def State.modSill (f : Sillage → Sillage) (s : State) : State := { s with sill := f s.sill }
def State.modCnt (f : Counters → Counters) (s : State) : State := { s with cnt := f s.cnt }

/-- Send something out of the package. -/
def State.emit (o : Output) (s : State) : State := { s with out := o :: s.out }

/-- The next free value, and the state after its draw. -/
def State.draw (s : State) : Nat := Config.freeValue s.free
def State.drawn (s : State) : State := { s with free := s.free + 1 }

/-! ### SB_ALERT_N -/

/-- An event bit of a port (R349). -/
def Port.event (p : Port) : Bool := p.evDegrade || p.evRestore || p.evMarginal || p.evRetrainFail

/-- SB_ALERT_N is asserted (R298, R308, R349, R403, R422, R440, R446). -/
def State.alert (s : State) : Bool :=
  s.boot.rstN &&
  (s.sw.evNoRoute || s.sw.evHopLimit || s.sw.evPortDown || s.sw.evPortUp || s.sw.evWiring || s.sw.evAge || s.sw.leakEv ||
   s.sw.conflictEv || s.ports.any (fun p => p.2.event) ||
   s.power.evCapUnmet || s.power.evWarn || s.power.evOrphan || s.power.evThrottle || s.power.evSwSlow || s.power.evHbmHot ||
   s.mgmt.restarted || s.sealCore.phase == 6)

/-- Do something that may assert SB_ALERT_N: each assertion raises an in-band interrupt while those are enabled (R455). -/
def raising (f : State → State) (s : State) : State :=
  let t := f s
  if t.sb.ibi && !s.alert && t.alert then t.emit .ibi else t

/-! ### Sizes (R35, R178) -/

/-- Bytes of a scratchpad and of a pool, and bundles of an instruction memory. -/
def spmBytes : Nat := 2 ^ 21
def poolBytes : Nat := 2 ^ 24
def imemBundles : Nat := 16384

/-! ### Memory -/

/-- One byte of a memory; an address nothing has written reads zero. -/
def Memory.read (m : Memory) (a : Nat) : Byte := SMap.get (0 : Byte) m a

/-- Write one byte, keeping the canonical form. -/
def Memory.write (m : Memory) (a : Nat) (b : Byte) : Memory := SMap.set (0 : Byte) m a b

/-- `n` bytes from an address. -/
def Memory.readN (m : Memory) (a : Nat) : Nat → List Byte
  | 0 => []
  | n + 1 => m.read a :: m.readN (a + 1) n

/-- Write a byte string at an address. -/
def Memory.writeN (m : Memory) (a : Nat) : List Byte → Memory
  | [] => m
  | b :: bs => (m.write a b).writeN (a + 1) bs

/-- The little-endian value of `n` bytes at an address (R11). -/
def Memory.leRead (m : Memory) (a n : Nat) : Nat := leVal (m.readN a n)

/-- Write the low `n` bytes of a value, little-endian (R11). -/
def Memory.leWrite (m : Memory) (a n v : Nat) : Memory := m.writeN a (leBytes n v)

/-- Every byte of a range zero. -/
def Memory.isZero (m : Memory) (a n : Nat) : Bool := m.all fun c => c.1 < a || a + n ≤ c.1

/-- Zero a range. -/
def Memory.clear (m : Memory) (a n : Nat) : Memory := m.filter fun c => c.1 < a || a + n ≤ c.1

/-- The canonical form of a memory. -/
def Memory.wf (m : Memory) : Bool := SMap.wf (0 : Byte) m

end Sys2Proof.Machine
end

