-- ==== Sys2Proof/Machine/Domains.lean ====
section
/-! DEFINITION. Power domains by number, the states they are in, the body-bias and assist codes they run under, and the
wake of a domain that an access reaches (14, R384, R385, R389, R390). -/
namespace Sys2Proof.Machine

/-- The number of a power domain (R384). -/
def Domain.num : Domain → Nat
  | .core c k => 8 * c.val + k.val
  | .pool c => 128 + c.val
  | .endpoint e => 144 + e.val
  | .switch => 160
  | .port n => 161 + n.val
  | .hbm n => 249 + n.val
  | .xp n => 261 + n.val
  | .spm c k => 265 + 8 * c.val + k.val

def coreDom (c k : Nat) : Nat := 8 * c + k
def poolDom (c : Nat) : Nat := 128 + c
def endpointDom (e : Nat) : Nat := 144 + e
def switchDom : Nat := 160
def portDom (n : Nat) : Nat := 161 + n
def hbmDom (n : Nat) : Nat := 249 + n
def xpDom (n : Nat) : Nat := 261 + n
def spmDom (c k : Nat) : Nat := 265 + 8 * c + k

def State.domain (s : State) (d : Nat) : DomState := SMap.get .full s.power.domains d

/-- POWER.BIAS_s of a state: none for OFF (R389). -/
def DomState.bias : DomState → Option Nat
  | .full => some 0
  | .trim => some 1
  | .doze => some 2
  | .park => some 3
  | .off => none

/-- The codes a domain applies as it enters a state, as 1 + BIAS_s, or 0 for none (R389). -/
def stateCodes (s : State) (st : DomState) : Nat :=
  match st.bias with
  | none => 0
  | some i => 1 + SMap.get 0 s.power.bias i

/-- A domain enters a state, and applies the codes of that state (R384, R389). -/
def setDomain (d : Nat) (st : DomState) (s : State) : State :=
  if s.domain d == st then s
  else
    let codes := stateCodes s st
    s.modPower fun p =>
      { p with domains := SMap.set .full p.domains d st, applied := SMap.set (1 + biasReset 0) p.applied d codes }

/-- Does the domain's clock run? -/
def DomState.awake (st : DomState) : Bool := st == .full || st == .trim

/-- An access reaches a domain: in DOZE or PARK it wakes, and the access goes on (R385). -/
def wakeDomain (d : Nat) (s : State) : State :=
  match s.domain d with
  | .full => s
  | .trim => s
  | .doze => setDomain d .full s
  | .park => setDomain d .full s
  | .off => s

/-- The state of a core that runs: FULL at point 0 and duty 16/16, and TRIM otherwise (R390). -/
def runState (s : State) : DomState := if s.power.oppt = 0 && s.power.duty = 16 then .full else .trim

/-- After a change of point or duty: every core that runs is in the state that goes with it (R390). -/
def settleCoresTrim (s : State) : State :=
  let st := runState s
  forEach (List.range 128) (fun d s => if (s.domain d).awake then setDomain d st s else s) s

end Sys2Proof.Machine
end

