-- ==== Sys2Proof/Machine/Float.lean ====
section
/-! DEFINITION. Floating-point arithmetic (R81, R151 to R154, R164): every operation forms the exact value and rounds
it once to nearest, ties to even. -/
namespace Sys2Proof

/-- What a format's largest exponent field holds (R151). -/
inductive Special where
  /-- infinity, and NaN above it -/
  | ieee
  /-- finite but for the all-ones code, which is NaN (E4M3) -/
  | e4m3
  /-- finite numbers only (FP6, FP4) -/
  | none
  deriving DecidableEq, Repr

/-- A binary floating-point format: exponent and mantissa widths, and its specials. -/
structure Fmt where
  eb : Nat
  mb : Nat
  sp : Special
  deriving DecidableEq, Repr

def Fmt.f32 : Fmt := ⟨8, 23, .ieee⟩
def Fmt.bf16 : Fmt := ⟨8, 7, .ieee⟩
def Fmt.f16 : Fmt := ⟨5, 10, .ieee⟩
def Fmt.e4m3 : Fmt := ⟨4, 3, .e4m3⟩
def Fmt.e5m2 : Fmt := ⟨5, 2, .ieee⟩
def Fmt.e2m3 : Fmt := ⟨2, 3, .none⟩
def Fmt.e3m2 : Fmt := ⟨3, 2, .none⟩
def Fmt.e2m1 : Fmt := ⟨2, 1, .none⟩

def Fmt.width (f : Fmt) : Nat := 1 + f.eb + f.mb
def Fmt.bias (f : Fmt) : Int := 2 ^ (f.eb - 1) - 1

/-- The exponent of one unit of a subnormal. -/
def Fmt.qmin (f : Fmt) : Int := 1 - f.bias - f.mb

/-- The magnitude bits of infinity, or one past the largest finite value where there is none. -/
def Fmt.top (f : Fmt) : Nat :=
  match f.sp with
  | .ieee => (2 ^ f.eb - 1) * 2 ^ f.mb
  | .e4m3 => 2 ^ (f.eb + f.mb) - 1
  | .none => 2 ^ (f.eb + f.mb)

/-- The canonical NaN of a format; +0 where it has none (R151, R153). -/
def Fmt.nan (f : Fmt) : Nat :=
  match f.sp with
  | .ieee => (2 ^ f.eb - 1) * 2 ^ f.mb + 2 ^ (f.mb - 1)
  | .e4m3 => 2 ^ (f.eb + f.mb) - 1
  | .none => 0

/-- The canonical NaN of E5M2 is 0x7E, as R151's rule for the other formats gives it too. -/
def Fmt.signed (f : Fmt) (neg : Bool) (mag : Nat) : Nat := if neg then 2 ^ (f.eb + f.mb) + mag else mag

/-- A value: NaN, an infinity, or ±m × 2^e. -/
inductive FV where
  | nan
  | inf (neg : Bool)
  | fin (neg : Bool) (m : Nat) (e : Int)
  deriving DecidableEq, Repr

/-- The value of a bit pattern (R151). -/
def Fmt.decode (f : Fmt) (v : Nat) : FV :=
  let mag := v % 2 ^ (f.eb + f.mb)
  let neg := bit v (f.eb + f.mb)
  let ex := mag / 2 ^ f.mb
  let mant := mag % 2 ^ f.mb
  if f.top ≤ mag then (if f.sp = .ieee && mant == 0 then .inf neg else .nan)
  else if ex = 0 then .fin neg mant f.qmin
  else .fin neg (2 ^ f.mb + mant) (f.qmin + (ex - 1 : Nat))

/-- The magnitude bits nearest m × 2^e, ties to even, with no bound above; `sticky` says that the exact value lies
strictly between m and m + 1 units. -/
def Fmt.roundMag (f : Fmt) (m : Nat) (e : Int) (sticky : Bool) : Nat :=
  if m = 0 then 0 else
  let q := max (e + (Nat.log2 m : Int) - f.mb) f.qmin
  let kept : Nat :=
    if q ≤ e then m * 2 ^ (e - q).toNat
    else
      let sh := (q - e).toNat
      let k := m / 2 ^ sh
      let r := m % 2 ^ sh
      let half := 2 ^ (sh - 1)
      if r > half || (r == half && (sticky || k % 2 == 1)) then k + 1 else k
  (q - f.qmin).toNat * 2 ^ f.mb + kept

/-- Round a value to a format with infinities (R152): beyond the largest finite value lies infinity. -/
def Fmt.round (f : Fmt) (v : FV) (sticky : Bool := false) : Nat :=
  match v with
  | .nan => f.nan
  | .inf neg => f.signed neg f.top
  | .fin neg m e => f.signed neg (min (f.roundMag m e sticky) f.top)

/-- Does the rounded magnitude lie beyond the largest finite value? -/
def Fmt.beyond (f : Fmt) (v : FV) : Bool :=
  match v with
  | .fin _ m e => f.top ≤ f.roundMag m e false
  | _ => false

/-- A narrowing conversion (R153): the bits, whether it saturated, and whether a NaN met a format without one. -/
structure Narrowed where
  bits : Nat
  sat  : Bool
  nan  : Bool
  deriving DecidableEq, Repr

/-- Narrow a value; `sat` is the .sat modifier, which BF16 and FP16 have. A finite value is out of range where its rounded
magnitude lies beyond the largest finite: 449 gives 448 in E4M3 and saturates nothing (R152, R153, assumption 80). -/
def Fmt.narrow (f : Fmt) (sat : Bool) (v : FV) : Narrowed :=
  let toInf := (f = .bf16 || f = .f16) && !sat
  match v with
  | .nan => { bits := f.nan, sat := false, nan := f.sp = .none }
  | .inf neg => if toInf then { bits := f.signed neg f.top, sat := false, nan := false }
      else { bits := f.signed neg (f.top - 1), sat := true, nan := false }
  | .fin neg m e =>
    let r := f.roundMag m e false
    if r < f.top then { bits := f.signed neg r, sat := false, nan := false }
    else if toInf then { bits := f.signed neg f.top, sat := false, nan := false }
    else { bits := f.signed neg (f.top - 1), sat := true, nan := false }

/-- An exact dyadic number n × 2^e. -/
structure Dyadic where
  n : Int
  e : Int
  deriving DecidableEq, Repr

def Dyadic.add (a b : Dyadic) : Dyadic :=
  let e := min a.e b.e
  { n := a.n * 2 ^ (a.e - e).toNat + b.n * 2 ^ (b.e - e).toNat, e := e }

/-- Compare two dyadics. -/
def Dyadic.lt (a b : Dyadic) : Bool :=
  let e := min a.e b.e
  a.n * 2 ^ (a.e - e).toNat < b.n * 2 ^ (b.e - e).toNat

def FV.isNan : FV → Bool
  | .nan => true
  | _ => false

def FV.isInf (neg : Bool) : FV → Bool
  | .inf n => n == neg
  | _ => false

def FV.dyadic : FV → Dyadic
  | .fin neg m e => { n := if neg then -(m : Int) else m, e := e }
  | _ => { n := 0, e := 0 }

def FV.isNegZero : FV → Bool
  | .fin neg m _ => neg && m == 0
  | _ => false

def FV.neg : FV → FV
  | .nan => .nan
  | .inf n => .inf !n
  | .fin n m e => .fin (!n) m e

def FV.abs : FV → FV
  | .nan => .nan
  | .inf _ => .inf false
  | .fin _ m e => .fin false m e

def FV.ofDyadic (d : Dyadic) (negZero : Bool) : FV :=
  if d.n = 0 then .fin negZero 0 0 else .fin (d.n < 0) d.n.natAbs d.e

/-- An exact integer as a value. -/
def FV.ofInt (i : Int) : FV := FV.ofDyadic { n := i, e := 0 } false

/-- The exact sum of any number of values (R152, R156). -/
def FV.sum (l : List FV) : FV :=
  if l.any FV.isNan then .nan
  else if l.any (FV.isInf true) && l.any (FV.isInf false) then .nan
  else if l.any (FV.isInf true) then .inf true
  else if l.any (FV.isInf false) then .inf false
  else FV.ofDyadic (l.foldl (fun a v => a.add v.dyadic) { n := 0, e := 0 }) (l.all FV.isNegZero)

/-- The exact product (R156). -/
def FV.mul (a b : FV) : FV :=
  match a, b with
  | .nan, _ => .nan
  | _, .nan => .nan
  | .inf p, .inf q => .inf (p != q)
  | .inf p, .fin q m _ => if m = 0 then .nan else .inf (p != q)
  | .fin p m _, .inf q => if m = 0 then .nan else .inf (p != q)
  | .fin p m e, .fin q n g => .fin (p != q) (m * n) (e + g)

/-- An integer product: its zero has no sign (R151, R152). -/
def FV.asInteger (v : FV) : FV :=
  match v with
  | .fin _ 0 e => .fin false 0 e
  | .fin p m e => .fin p m e
  | .inf p => .inf p
  | .nan => .nan

/-- Is one value below another? −0 and +0 are equal here; NaN is below nothing. -/
def FV.lt (a b : FV) : Bool :=
  match a, b with
  | .nan, _ => false
  | _, .nan => false
  | .inf p, .inf q => p && !q
  | .inf p, .fin .. => p
  | .fin .., .inf q => !q
  | .fin .., .fin .. => a.dyadic.lt b.dyadic

def FV.eq (a b : FV) : Bool := !a.isNan && !b.isNan && !a.lt b && !b.lt a

def FV.isNeg : FV → Bool
  | .nan => false
  | .inf n => n
  | .fin n _ _ => n

/-- −0 below +0 (R81, R152). -/
def FV.below (a b : FV) : Bool := a.lt b || (a.eq b && a.isNeg && !b.isNeg)

/-- MIN and MAX: NaN if any input is a NaN. -/
def FV.min (a b : FV) : FV := if a.isNan || b.isNan then .nan else if b.below a then b else a
def FV.max (a b : FV) : FV := if a.isNan || b.isNan then .nan else if a.below b then b else a

/-- An integer square root, one bit of the root at a time. -/
def isqrtGo (v : Nat) : Nat → Nat → Nat
  | 0, r => r
  | k + 1, r => let t := r + 2 ^ k; isqrtGo v k (if t * t ≤ v then t else r)

def isqrt (v : Nat) : Nat := isqrtGo v (Nat.log2 v / 2 + 1) 0

/-- FP32 quotient nearest the exact one (R164). -/
def Fmt.div (f : Fmt) (a b : FV) : Nat :=
  match a, b with
  | .nan, _ => f.nan
  | _, .nan => f.nan
  | .inf _, .inf _ => f.nan
  | .inf p, .fin q _ _ => f.round (.inf (p != q))
  | .fin p _ _, .inf q => f.round (.fin (p != q) 0 0)
  | .fin p m e, .fin q n g =>
    if n = 0 then (if m = 0 then f.nan else f.round (.inf (p != q)))
    else
      let sh := Nat.log2 n + 2 * f.mb + 8
      let num := m * 2 ^ sh
      f.round (.fin (p != q) (num / n) (e - g - sh)) (num % n != 0)

/-- FP32 square root nearest the exact one (R164). -/
def Fmt.sqrt (f : Fmt) (a : FV) : Nat :=
  match a with
  | .nan => f.nan
  | .inf p => if p then f.nan else f.round (.inf false)
  | .fin p m e =>
    if m = 0 then f.round (.fin p 0 0)
    else if p then f.nan
    else
      let odd := e % 2 != 0
      let m' := (if odd then 2 * m else m) * 2 ^ 64
      let e' := (if odd then e - 1 else e) - 64
      let r := isqrt m'
      f.round (.fin false r (e' / 2)) (r * r != m')

/-- Fixed-point places of the exponential's working value. -/
def expPlaces : Nat := 320

/-- The Taylor series of exp at t × 2^−320, its first terms. -/
def expSeries (t : Nat) : Nat → Nat → Nat → Nat → Nat
  | 0, _, _, acc => acc
  | k + 1, i, term, acc =>
    let term' := term * t / 2 ^ expPlaces / i
    expSeries t k (i + 1) term' (acc + term')

/-- Square a fixed-point number `k` times. -/
def squareTimes : Nat → Nat → Nat
  | 0, v => v
  | k + 1, v => squareTimes k (v * v / 2 ^ expPlaces)

/-- exp of a non-negative m × 2^e below 256, at 320 places. -/
def expFixed (m : Nat) (e : Int) : Nat :=
  let p : Int := e + expPlaces - 9
  let t := if 0 ≤ p then m * 2 ^ p.toNat else m / 2 ^ (-p).toNat
  squareTimes 9 (expSeries t 64 1 (2 ^ expPlaces) (2 ^ expPlaces))

/-- The FP32 value nearest the exact exponential (R164, assumption 20). -/
def exp32 (a : FV) : Nat :=
  let f := Fmt.f32
  match a with
  | .nan => f.nan
  | .inf neg => if neg then 0 else f.top
  | .fin neg m e =>
    if m = 0 then f.round (.fin false 1 0)
    else if a.abs.lt (.fin false 256 0) then
      let y := expFixed m e
      if neg then f.round (.fin false (2 ^ (2 * expPlaces) / y) (-(expPlaces : Int))) true
      else f.round (.fin false y (-(expPlaces : Int))) true
    else if neg then 0 else f.top

/-- The integer nearest a finite value, ties to even. -/
def FV.nearest (neg : Bool) (m : Nat) (e : Int) : Int :=
  let mag : Nat :=
    if 0 ≤ e then m * 2 ^ e.toNat
    else
      let sh := (-e).toNat
      let k := m / 2 ^ sh
      let r := m % 2 ^ sh
      let half := 2 ^ (sh - 1)
      if r > half || (r == half && k % 2 == 1) then k + 1 else k
  if neg then -(mag : Int) else mag

/-- A float to a signed integer of `w` bits (R153, R189): nearest, saturating, NaN gives 0. -/
def FV.toIntSat (w : Nat) (v : FV) : Narrowed :=
  match v with
  | .nan => { bits := 0, sat := false, nan := true }
  | .inf neg => { bits := if neg then 2 ^ (w - 1) else 2 ^ (w - 1) - 1, sat := true, nan := false }
  | .fin neg m e =>
    let i := FV.nearest neg m e
    if i < -((2 ^ (w - 1) : Nat) : Int) then { bits := 2 ^ (w - 1), sat := true, nan := false }
    else if ((2 ^ (w - 1) : Nat) : Int) ≤ i then { bits := 2 ^ (w - 1) - 1, sat := true, nan := false }
    else { bits := Sys2Proof.ofInt w i, sat := false, nan := false }

/-! ### FP32 operations on bit patterns -/

def fadd (f : Fmt) (a b : Nat) : Nat := f.round (FV.sum [f.decode a, f.decode b])
def fsub (f : Fmt) (a b : Nat) : Nat := f.round (FV.sum [f.decode a, (f.decode b).neg])
def fmul (f : Fmt) (a b : Nat) : Nat := f.round (FV.mul (f.decode a) (f.decode b))
def ffma (f : Fmt) (a b c : Nat) : Nat := f.round (FV.sum [FV.mul (f.decode a) (f.decode b), f.decode c])
def fminBits (f : Fmt) (a b : Nat) : Nat := f.round (FV.min (f.decode a) (f.decode b))
def fmaxBits (f : Fmt) (a b : Nat) : Nat := f.round (FV.max (f.decode a) (f.decode b))
def fdivBits (f : Fmt) (a b : Nat) : Nat := f.div (f.decode a) (f.decode b)
def fsqrtBits (f : Fmt) (a : Nat) : Nat := f.sqrt (f.decode a)
def fexp (a : Nat) : Nat := exp32 (Fmt.f32.decode a)

end Sys2Proof
end

