-- ==== Sys2Proof/Machine/Codec.lean ====
section
/-! DEFINITION. Packets as bytes: the header layout, its CRC, the payload trailer, the operation codes and the rules of
each header (03, R74 to R103). -/
namespace Sys2Proof

/-! ### Cyclic redundancy checks -/

/-- One bit step of an unreflected CRC of `w` bits. -/
def crcBits (w poly : Nat) : Nat → Nat → Nat
  | 0, c => c
  | k + 1, c =>
    let c' := 2 * c % 2 ^ w
    crcBits w poly k (if 2 ^ (w - 1) ≤ c then c' ^^^ poly else c')

/-- An unreflected CRC over bytes. -/
def crcOver (w poly init : Nat) (bs : List Byte) : Nat :=
  bs.foldl (fun c b => crcBits w poly 8 (c ^^^ (b.toNat * 2 ^ (w - 8)))) init

/-- CRC-16 of the header (R75). -/
def crc16 (bs : List Byte) : Nat := crcOver 16 0x1021 0xFFFF bs

/-- CRC-64/ECMA-182 (R76, R338). -/
def crc64 (bs : List Byte) : Nat := crcOver 64 0x42F0E1EBA9EA3693 0 bs

/-- One bit step of a reflected 32-bit CRC. -/
def crc32Bits (poly : Nat) : Nat → Nat → Nat
  | 0, c => c
  | k + 1, c => crc32Bits poly k (if c % 2 = 1 then (c / 2) ^^^ poly else c / 2)

/-- A reflected CRC-32 with complemented ends and the given reversed polynomial. -/
def crc32Over (poly : Nat) (bs : List Byte) : Nat :=
  (bs.foldl (fun c b => crc32Bits poly 8 (c ^^^ b.toNat)) 0xFFFFFFFF) ^^^ 0xFFFFFFFF

/-! ### Headers -/

/-- A header of zeros. -/
def Header.zero : Header where
  dnode := 0
  snode := 0
  op := 0
  len := 0
  vc := 0
  hop := 0
  ep := 0
  f := 0
  stag := 0
  part := 0
  rsv0 := 0
  offset := 0
  tid := 0
  cnt := 0
  attr := 0
  wgen := 0
  step := 0
  level := 0
  index := 0
  rsv1 := 0
  hcrc := 0

/-- The 240 bits the header CRC covers, as a number (R74). -/
def Header.value (h : Header) : Nat :=
  h.dnode.toNat + fld 12 h.snode.toNat + fld 24 h.op.toNat + fld 32 h.len.toNat + fld 41 h.vc.toNat
  + fld 44 h.hop.toNat + fld 46 h.ep.toNat + fld 47 h.f.toNat + fld 48 h.stag.toNat + fld 54 h.part.toNat
  + fld 60 h.rsv0.toNat + fld 64 h.offset.toNat + fld 116 h.tid.toNat + fld 128 h.cnt.toNat
  + fld 144 h.attr.toNat + fld 152 h.wgen.toNat + fld 160 h.step.toNat + fld 176 h.level.toNat
  + fld 180 h.index.toNat + fld 192 h.rsv1.toNat

/-- Header bytes 0 to 29. -/
def Header.body (h : Header) : List Byte := leBytes 30 h.value

/-- The 32 header bytes, least significant first (R74). -/
def Header.bytes (h : Header) : List Byte := h.body ++ leBytes 2 h.hcrc.toNat

/-- Read a header from 32 bytes (R74). -/
def Header.ofBytes (bs : List Byte) : Header :=
  let v := leVal (bs.take 32)
  { dnode := BitVec.ofNat _ v, snode := BitVec.ofNat _ (bits v 23 12), op := BitVec.ofNat _ (bits v 31 24),
    len := BitVec.ofNat _ (bits v 40 32), vc := BitVec.ofNat _ (bits v 43 41), hop := BitVec.ofNat _ (bits v 45 44),
    ep := BitVec.ofNat _ (bits v 46 46), f := BitVec.ofNat _ (bits v 47 47), stag := BitVec.ofNat _ (bits v 53 48),
    part := BitVec.ofNat _ (bits v 59 54), rsv0 := BitVec.ofNat _ (bits v 63 60),
    offset := BitVec.ofNat _ (bits v 115 64), tid := BitVec.ofNat _ (bits v 127 116),
    cnt := BitVec.ofNat _ (bits v 143 128), attr := BitVec.ofNat _ (bits v 151 144),
    wgen := BitVec.ofNat _ (bits v 159 152), step := BitVec.ofNat _ (bits v 175 160),
    level := BitVec.ofNat _ (bits v 179 176), index := BitVec.ofNat _ (bits v 191 180),
    rsv1 := BitVec.ofNat _ (bits v 239 192), hcrc := BitVec.ofNat _ (bits v 255 240) }

/-- The header CRC a header should carry (R75). -/
def Header.crc (h : Header) : BitVec 16 := BitVec.ofNat 16 (crc16 h.body)

/-- Compute the header CRC again, as every switch that rewrites the header does (R75). -/
def Header.seal_ (h : Header) : Header := { h with hcrc := h.crc }

def Header.hcrcOk (h : Header) : Bool := h.hcrc == h.crc

/-- Window and position of OFFSET. -/
def Header.window (h : Header) : Nat := h.offset.toNat / 2 ^ 40
def Header.pos (h : Header) : Nat := h.offset.toNat % 2 ^ 40

/-- A packet's payload length in bytes, by its LEN. -/
def Header.payLen (h : Header) : Nat := 16 * h.len.toNat

/-- Build a packet: LEN, trailer and HCRC follow from the payload (R75, R76). -/
def Packet.make (h : Header) (payload : List Byte) : Packet :=
  let h := { h with len := BitVec.ofNat 9 (payload.length / 16) }
  { hdr := h.seal_, payload := payload, trailer := BitVec.ofNat 64 (if payload.isEmpty then 0 else crc64 payload) }

/-- Does the payload match its trailer, where there is one? -/
def Packet.trailerOk (p : Packet) : Bool :=
  p.payload.isEmpty || p.trailer == BitVec.ofNat 64 (crc64 p.payload)

/-- A packet's bytes on the link: header, payload, trailer (R76). -/
def Packet.bytes (p : Packet) : List Byte :=
  p.hdr.bytes ++ (if p.hdr.len = 0 then [] else p.payload ++ leBytes 8 p.trailer.toNat)

/-- The bytes a header says its packet occupies (R76). -/
def Header.size (h : Header) : Nat := if h.len = 0 then 32 else 40 + h.payLen

/-- Read a packet from its bytes. -/
def Packet.ofBytes (bs : List Byte) : Packet :=
  let h := Header.ofBytes bs
  if h.len = 0 then { hdr := h, payload := [], trailer := 0 }
  else { hdr := h, payload := fitBytes h.payLen (bs.drop 32),
         trailer := BitVec.ofNat 64 (leAt bs (32 + h.payLen) 8) }

/-- A packet's size in bytes (R76). -/
def Packet.size (p : Packet) : Nat := p.hdr.size

/-! ### Status codes (03, 13) -/

def stOk : Nat := 0x00
def stMalformed : Nat := 0x01
def stBounds : Nat := 0x02
def stPermission : Nat := 0x03
def stStateReject : Nat := 0x04
def stWindowStale : Nat := 0x05
def stTimeout : Nat := 0x06
def stUncorrected : Nat := 0x07
def stFenced : Nat := 0x08
def stTornDown : Nat := 0x09
def stHoldFull : Nat := 0x0A
def stStreamBroken : Nat := 0x0B
def stCheckFailed : Nat := 0x0C
def stUnsupported : Nat := 0x0D

/-! ### Operation codes (R79) -/

def opLoad : Nat := 0x01
def opStore : Nat := 0x02
def opFetch : Nat := 0x03
def opCswap : Nat := 0x04
def opReduce : Nat := 0x05
def opOreduce : Nat := 0x06
def opWreduce : Nat := 0x07
def opLse : Nat := 0x08
def opMcast : Nat := 0x09
def opCarry : Nat := 0x0A
def opMgmtRead : Nat := 0x0C
def opMgmtWrite : Nat := 0x0D
def opMgmtMsg : Nat := 0x0E

/-- Every request code (R79). -/
def requestOps : List Nat :=
  [opLoad, opStore, opFetch, opCswap, opReduce, opOreduce, opWreduce, opLse, opMcast, opCarry, opMgmtRead,
   opMgmtWrite, opMgmtMsg]

def isMgmtOp (op : Nat) : Bool := op == opMgmtRead || op == opMgmtWrite || op == opMgmtMsg
def isRequest (op : Nat) : Bool := requestOps.contains op
def isResponse (op : Nat) : Bool := 0x80 ≤ op && requestOps.contains (op - 0x80)

/-! ### Types and operators (R80) -/

/-- Element size of a data type; 0 for NONE and the reserved codes. -/
def typeSize (t : Nat) : Nat :=
  match t with
  | 1 => 4 | 2 => 4 | 3 => 8 | 4 => 8 | 5 => 4 | 6 => 2 | 7 => 2 | 8 => 16
  | _ => 0

/-- Is the ATTR combination supported for the operation (the support table of R80)? -/
def attrOk (op attr : Nat) : Bool :=
  let t := attr % 16
  let o := attr / 16
  let int := 1 ≤ t && t ≤ 4
  if op == opFetch then (int && 1 ≤ o && o ≤ 7) || (t == 5 && (o == 2 || o == 3 || o == 7))
  else if op == opCswap then int && o == 0
  else if op == opReduce then (int && 1 ≤ o && o ≤ 6) || ((5 ≤ t && t ≤ 7) && 1 ≤ o && o ≤ 3)
  else if op == opOreduce then t == 5 && o == 1
  else if op == opWreduce then t == 8 && o == 1
  else if op == opLse then t == 5 && (o == 8 || o == 9)
  else t == 0 && o == 0

/-! ### Header rules of each operation (R85 item 4) -/

def allZero (bs : List Byte) : Bool := bs.all (· == 0)

/-- CTX of an OREDUCE or LSE (R96). -/
def treeOk (h : Header) : Bool :=
  let lv := h.cnt.toNat % 16
  lv ≤ 12 && h.level.toNat ≤ lv && h.index.toNat < 2 ^ (lv - h.level.toNat)

/-- Head blocks of an LSE payload: bytes 8 to 15 of each are zero (R101). -/
def headsZero : Nat → Nat → List Byte → Bool
  | 0, _, _ => true
  | k + 1, b, bs => allZero ((bs.drop 8).take 8) && headsZero k b (bs.drop b)

/-- Size of one LSE head block (R101). -/
def lseBlock (cnt : Nat) : Nat := 16 + 16 * (cnt / 16)

/-- The LEN, F, CNT, ATTR, OFFSET, CTX and payload rules of one request (R88 to R103). -/
def headerOk (p : Packet) : Bool :=
  let h := p.hdr
  let op := h.op.toNat
  let len := h.len.toNat
  let cnt := h.cnt.toNat
  let f := h.f == 1
  let al16 := h.offset.toNat % 16 == 0
  let size := typeSize (h.attr.toNat % 16)
  let noTree := h.level == 0 && h.index == 0
  attrOk op h.attr.toNat &&
  (if op == opLoad then len == 0 && !f && al16 && 1 ≤ cnt && cnt ≤ 256 && noTree
   else if op == opStore then 1 ≤ len && len ≤ 256 && al16 && (f || cnt == 0) && noTree
   else if op == opMcast then
     (if len == 0 then f && cnt == 65535 && h.offset == 0 && h.wgen == 0
      else len ≤ 256 && al16 && (f || cnt == 0)) && noTree
   else if op == opCarry then len == 0 && f && cnt == 65535 && h.offset == 0 && h.wgen == 0 && noTree
   else if op == opFetch then
     len == 1 && !f && cnt == 0 && h.offset.toNat % size == 0 && allZero (p.payload.drop size) && noTree
   else if op == opCswap then
     len == 1 && !f && cnt == 0 && h.offset.toNat % size == 0 &&
     allZero ((p.payload.take 8).drop size) && allZero (p.payload.drop (8 + size)) && noTree
   else if op == opReduce || op == opWreduce then 1 ≤ len && len ≤ 256 && !f && cnt == 0 && al16 && noTree
   else if op == opOreduce then 1 ≤ len && len ≤ 256 && !f && al16 && treeOk h && cnt / 16 == 0
   else if op == opLse then
     1 ≤ len && len ≤ 256 && !f && al16 && treeOk h && 1 ≤ cnt / 16 &&
     h.payLen % lseBlock cnt == 0 && headsZero (h.payLen / lseBlock cnt) (lseBlock cnt) p.payload
   else false)

/-- Items 2 to 5 of R85, in order: none if the packet passes. -/
def headerVerdict (p : Packet) : Option Nat :=
  let op := p.hdr.op.toNat
  if !isRequest op || isMgmtOp op then some stMalformed
  else if p.hdr.rsv0 != 0 || p.hdr.rsv1 != 0 then some stMalformed
  else if !headerOk p then some stMalformed
  else if !p.trailerOk then some stCheckFailed
  else none

/-! ### Responses (R78) -/

/-- VC of a response by the hop of its link: VC4, VC5, VC6 (R78, R278). -/
def responseVc (hop : Nat) : Nat := 4 + min hop 2

/-- The response to a request: fields copied, DNODE and SNODE exchanged, status in ATTR (R78). -/
def respond (q : Header) (status cnt : Nat) (payload : List Byte) : Packet :=
  let mg := isMgmtOp q.op.toNat
  Packet.make
    { Header.zero with
      dnode := q.snode, snode := q.dnode, op := BitVec.ofNat 8 (q.op.toNat + 0x80),
      vc := if mg && q.vc == 0 then 0 else BitVec.ofNat 3 (responseVc 0), stag := q.stag, part := q.part, offset := q.offset,
      tid := q.tid, cnt := BitVec.ofNat 16 cnt, attr := BitVec.ofNat 8 status, wgen := q.wgen, step := q.step,
      level := q.level, index := q.index }
    payload

/-! ### Fabric arithmetic (R81) -/

/-- One element of a fetch or reduction: type code, operator code, target, operand (R81). -/
def attrOp (attr target operand : Nat) : Nat :=
  let t := attr % 16
  let o := attr / 16
  let w := 8 * typeSize t
  if o == 7 then operand
  else if t == 5 || t == 6 || t == 7 then
    let f := if t == 5 then Fmt.f32 else if t == 6 then Fmt.bf16 else Fmt.f16
    if o == 1 then fadd f target operand else if o == 2 then fminBits f target operand else fmaxBits f target operand
  else
    let signed := t == 1 || t == 3
    let below := fun a b => if signed then toSigned w a < toSigned w b else a < b
    match o with
    | 1 => (target + operand) % 2 ^ w
    | 2 => if below operand target then operand else target
    | 3 => if below target operand then operand else target
    | 4 => target &&& operand
    | 5 => target ||| operand
    | _ => target ^^^ operand

/-- Element-wise reduction of byte strings of one length (R94). -/
def reduceBytes (attr : Nat) : Nat → List Byte → List Byte → List Byte
  | 0, _, _ => []
  | k + 1, t, p =>
    let z := typeSize (attr % 16)
    leBytes z (attrOp attr (leAt t 0 z) (leAt p 0 z)) ++ reduceBytes attr k (t.drop z) (p.drop z)

/-- target := target op payload, over a whole payload (R94). -/
def reduceAll (attr : Nat) (target payload : List Byte) : List Byte :=
  reduceBytes attr (payload.length / max 1 (typeSize (attr % 16))) target payload

/-! ### Accord arithmetic (R101) -/

/-- FP32 element-wise sum of two partials (R101). -/
def oreduceBytes (l r : List Byte) : List Byte := reduceAll 0x15 l r

/-- The values o[k] of two LSE blocks combined under their weights. -/
def lseElems (w1 w2 : Nat) : Nat → List Byte → List Byte → List Byte
  | 0, _, _ => []
  | k + 1, a, b =>
    leBytes 4 (fadd .f32 (fmul .f32 (leAt a 0 4) w1) (fmul .f32 (leAt b 0 4) w2)) ++ lseElems w1 w2 k (a.drop 4) (b.drop 4)

/-- One LSE head block from two (R101). -/
def lseCombine (d : Nat) (a b : List Byte) : List Byte :=
  let m1 := leAt a 0 4
  let m2 := leAt b 0 4
  let m := fmaxBits .f32 m1 m2
  let ninf := 0xFF800000
  let w1 := if m1 == ninf then 0 else fexp (fsub .f32 m1 m)
  let w2 := if m2 == ninf then 0 else fexp (fsub .f32 m2 m)
  let s := fadd .f32 (fmul .f32 (leAt a 4 4) w1) (fmul .f32 (leAt b 4 4) w2)
  leBytes 4 m ++ leBytes 4 s ++ zeros 8 ++ lseElems w1 w2 d (a.drop 16) (b.drop 16)

/-- LSE partials, head by head (R101). -/
def lseBytes (cnt : Nat) : Nat → List Byte → List Byte → List Byte
  | 0, _, _ => []
  | h + 1, a, b => lseCombine (4 * (cnt / 16)) a b ++ lseBytes cnt h (a.drop (lseBlock cnt)) (b.drop (lseBlock cnt))

/-- o ÷ s of one head; +0 throughout where s is a zero (R101). -/
def lseQuotients (s : Nat) : Nat → List Byte → List Byte
  | 0, _ => []
  | k + 1, o =>
    (if s % 2 ^ 31 == 0 then zeros 4 else leBytes 4 (fdivBits .f32 (leAt o 0 4) s)) ++ lseQuotients s k (o.drop 4)

/-- The normalised vector of every head (R101). -/
def lseNormBytes (cnt : Nat) : Nat → List Byte → List Byte
  | 0, _ => []
  | h + 1, a => lseQuotients (leAt a 4 4) (4 * (cnt / 16)) (a.drop 16) ++ lseNormBytes cnt h (a.drop (lseBlock cnt))

/-- Combine two partials of a session by its operation: LSE if the type and operator say so, else OREDUCE. -/
def accordCombine (attr cnt : Nat) (l r : List Byte) : List Byte :=
  if 8 ≤ attr / 16 then lseBytes cnt (l.length / lseBlock cnt) l r else oreduceBytes l r

/-- The bytes a root writes (R101). -/
def accordRoot (attr cnt : Nat) (root : List Byte) : List Byte :=
  if attr / 16 == 9 then lseNormBytes cnt (root.length / lseBlock cnt) root else root

/-- The length of a session's root in bytes (R101, check 7 of R63). -/
def rootLen (attr cnt len : Nat) : Nat :=
  if attr / 16 == 9 then 16 * len / lseBlock cnt * (16 * (cnt / 16)) else 16 * len

/-! ### Link frame types (R338) -/

/-- The TYPE code (R338). -/
def FrameType.code : FrameType → Nat
  | .idle => 0
  | .data => 1
  | .dataT => 2
  | .ctrl => 3
  | .degrade => 4

def FrameType.sequenced : FrameType → Bool
  | .data => true
  | .dataT => true
  | .ctrl => true
  | .idle => false
  | .degrade => false

end Sys2Proof
end

