-- ==== Sys2Proof/Machine/Rings.lean ====
section
/-! DEFINITION. What the device writes into host memory: completions, events, fault records and interrupts (R362, R372
to R377). -/
namespace Sys2Proof.Machine

/-! ### Host translations (R52, R53) -/

/-- The PASID a ring's requests carry (R52). -/
def Sq.pasidOf (q : Sq) : Option Nat := if q.pasidEn then some q.pasid else none


/-- Does an ATC entry cover a page of the PASID with the permission? -/
def AtcEntry.covers (e : AtcEntry) (pasid : Option Nat) (page : Nat) (write : Bool) : Bool :=
  e.pasid == pasid && 4096 * page / 2 ^ e.log2 == 4096 * e.page / 2 ^ e.log2 && (if write then e.write else e.read)

/-- May the port access a host page now: untranslated, or through the ATC? -/
def hostPageOk (s : State) (x : Nat) (pasid : Option Nat) (page : Nat) (write : Bool) : Bool :=
  let h := s.host x
  !h.atsEn || h.atc.any fun e => e.covers pasid page write

/-- Ask the translation agent for a page that a ring access needs, once. -/
def askRing (x : Nat) (pasid : Option Nat) (page : Nat) (write : Bool) (s : State) : State :=
  if (s.host x).ringAsks.any fun a => a.pasid == pasid && a.page == page && a.write == write then s
  else
    (s.modHost x fun h =>
      { h with ringAsks := h.ringAsks ++ [{ pasid := pasid, page := page, write := write, pri := false }] }).emit
        (.atsRequest x pasid page write)

/-! ### Sending ring entries and interrupts, in order -/

/-- Signal an MSI-X vector: sent, or left pending while masked (R377). -/
def msixSignal (x v : Nat) (s : State) : State :=
  let m := SMap.get Msix.reset (s.host x).msix v
  if m.masked then s.modHost x fun h => { h with msix := SMap.set Msix.reset h.msix v { m with pending := true } }
  else s.emit (.msix x v m.addr m.data)

/-- May it be sent now (R53, R352)? -/
def ringReady (s : State) (x : Nat) (o : RingOut) : Bool :=
  !(s.host x).d3hot && (match o with
    | .entry pasid a _ => hostPageOk s x pasid (a / 4096) true
    | .signal _ => true)

/-- Ask for the translation it lacks. -/
def ringAsk (x : Nat) (o : RingOut) (s : State) : State :=
  match o with
  | .entry pasid a _ => if hostPageOk s x pasid (a / 4096) true then s else askRing x pasid (a / 4096) true s
  | .signal _ => s

def ringSend (x : Nat) (o : RingOut) (s : State) : State :=
  match o with
  | .entry pasid a bs => s.emit (.hostWrite x pasid a bs)
  | .signal v => msixSignal x v s

/-- Send it, behind what waits before it. -/
def ringPush (x : Nat) (o : RingOut) (s : State) : State :=
  if (s.host x).ringOut.isEmpty && ringReady s x o then ringSend x o s
  else
    let s := if (s.host x).ringOut.isEmpty then ringAsk x o s else s
    s.modHost x fun h => { h with ringOut := h.ringOut ++ [o] }

/-- Send what waits, as far as translations allow. -/
def drainRings (x : Nat) : Nat → State → State
  | 0, s => s
  | n + 1, s =>
    match (s.host x).ringOut with
    | [] => s
    | o :: rest =>
      if ringReady s x o then drainRings x n (ringSend x o (s.modHost x fun h => { h with ringOut := rest }))
      else ringAsk x o s

/-! ### The port that holds the main role -/

/-- The port in the main role (R379). -/
def State.mainPort (s : State) : Nat := if (s.host 1).main then 1 else 0

/-! ### Event and fault rings -/

/-- The ring registers of the EQ, or of the FQ. -/
def HostPort.rq (h : HostPort) (fq : Bool) : Rq := if fq then h.fq else h.eq

def State.modRq (fq : Bool) (x : Nat) (f : Rq → Rq) (s : State) : State :=
  s.modHost x fun h => if fq then { h with fq := f h.fq } else { h with eq := f h.eq }

/-- Entries of a ring the device writes that the host has not released. -/
def ringFill (tail head : Nat) : Nat := (tail + 2 ^ 32 - head) % 2 ^ 32

/-- The tail after one entry, and whether the phase toggles: it does as the tail wraps to slot 0 (R362). -/
def nextTail (log2 tail : Nat) : Nat × Bool :=
  let t := (tail + 1) % 2 ^ 32
  (t, t % 2 ^ log2 == 0)

/-- Count a record that could not be written (R374, R376). -/
def recordLost (fq : Bool) (x : Nat) (s : State) : State :=
  s.modRq fq x fun q => { q with overflow := cnt32 q.overflow, overflowed := true }

/-- Write a 64-byte record into the EQ or FQ of a port: SEQ and phase are the ring's (R362, R374 to R377). -/
def ringRecord (fq : Bool) (x : Nat) (rec : List Byte) (s : State) : State :=
  let q := (s.host x).rq fq
  if !q.en || 2 ^ q.log2 ≤ ringFill q.tail q.head then recordLost fq x s
  else
    let bytes := patch (patch (fitBytes 64 rec) 6 (leBytes 2 q.seq)) 63 [if q.phase then 0x80 else 0]
    let nt := nextTail q.log2 q.tail
    let s := ringPush x (.entry none (q.base + 64 * (q.tail % 2 ^ q.log2)) bytes) s
    let s := s.modRq fq x fun q =>
      { q with tail := nt.1, phase := if nt.2 then !q.phase else q.phase, seq := (q.seq + 1) % 2 ^ 16 }
    if q.irqEn then ringPush x (.signal q.vector) s else s

/-- A fault record due to a port: its fault ring, or that of the main port, or the holding buffer (R373). -/
def faultRecord (x : Nat) (rec : List Byte) (s : State) : State :=
  if (s.host x).linkUp then ringRecord true x rec s
  else if (s.host s.mainPort).linkUp then ringRecord true s.mainPort rec s
  else if s.glob.heldRecords.length < 256 then s.modGlob fun g => { g with heldRecords := g.heldRecords ++ [rec] }
  else recordLost true x s

/-- An event record on a port whose link is up; otherwise it is counted (R376). -/
def eventRecord (x : Nat) (rec : List Byte) (s : State) : State :=
  if (s.host x).linkUp then ringRecord false x rec s else recordLost false x s

/-- Write every held record into the fault ring of a port (R373). -/
def flushHeld (x : Nat) (s : State) : State :=
  forEach s.glob.heldRecords (ringRecord true x) (s.modGlob fun g => { g with heldRecords := [] })

/-- A record: common part and type-specific bytes (R375); SEQ and the phase are set as it is written. -/
def mkRecord (s : State) (type status origin port unit : Nat) (ref : List Byte) (body : List Byte) : List Byte :=
  leBytes 1 type ++ leBytes 1 status ++ leBytes 1 origin ++ leBytes 1 port ++ leBytes 2 unit ++ zeros 2
  ++ leBytes 8 s.now ++ fitBytes 8 ref ++ fitBytes 40 body

/-! ### Completions -/

/-- Entries free in a completion ring beyond those reserved (R359). -/
def Cq.roomLeft (q : Cq) : Bool := ringFill q.tail q.head + q.owed < 2 ^ q.log2

/-- Signal a completion ring's vector and start its counts again (R377). -/
def cqSignal (x r : Nat) (s : State) : State :=
  ringPush x (.signal ((s.host x).cqAt r).vector) (s.modCq x r fun q => { q with unsig := 0 })

/-- Write one completion entry into a CQ, or discard it where the link is down (R361, R362, R377, R380). -/
def cqWrite (x r : Nat) (pasid : Option Nat) (entry : List Byte) (irq : Bool) (s : State) : State :=
  let q := (s.host x).cqAt r
  let s := s.modCq x r fun q => { q with owed := q.owed - 1 }
  if !(s.host x).linkUp || !q.en then s
  else
    let bytes := patch (fitBytes 64 entry) 63 [if q.phase then 0x80 else 0]
    let nt := nextTail q.log2 q.tail
    let s := ringPush x (.entry pasid (q.base + 64 * (q.tail % 2 ^ q.log2)) bytes) s
    let s := s.modCq x r fun q =>
      { q with tail := nt.1, phase := if nt.2 then !q.phase else q.phase, unsig := q.unsig + 1 }
    let q := (s.host x).cqAt r
    if q.irqEn && (q.coalesce ≤ q.unsig || irq) then cqSignal x r s else s

/-- The completion entry of a command (R362). -/
def completionEntry (entry : List Byte) (index ring status result detail : Nat) : List Byte :=
  (entry.drop 6).take 2 ++ leBytes 1 status ++ entry.take 1 ++ leBytes 4 index ++ leBytes 1 ring ++ zeros 7
  ++ leBytes 8 result ++ leBytes 8 detail ++ zeros 32

/-- Complete a ring command: count a STATE_REJECT, write the completion to the CQ its ring named when it was taken, with
the ring's PASID (R355, R361, R362, R364). A command cut off by a PERST_N or FLR writes none (R380). -/
def completeRing (x r cq : Nat) (pasid : Option Nat) (index gen : Nat) (entry : List Byte) (status result detail : Nat) (s : State) : State :=
  let s := if status == stStateReject then s.modSq x r fun q => { q with rejects := cnt16 q.rejects } else s
  if gen < (s.host x).dropGen then s
  else
    cqWrite x cq pasid (completionEntry entry index r status result detail) (bit (leAt entry 0 8) 9) s

/-! ### Named records -/

/-- PKG_STATE on the event ring of each port whose link is up (R376, R409). -/
def pkgStateEvent (old new : Nat) (s : State) : State :=
  forEach [0, 1]
    (fun x s => onlyIf (s.host x).linkUp
      (ringRecord false x (mkRecord s 0x05 0 7 0 0 [] (leBytes 1 old ++ leBytes 1 new))) s) s

/-- DOORBELL: a refused value, by ring and kind (R357, R358, R376). -/
def doorbellEvent (x ring kind v : Nat) (s : State) : State :=
  eventRecord x (mkRecord s 0x03 0 7 0 0 [] (leBytes 1 ring ++ leBytes 1 kind ++ zeros 2 ++ leBytes 4 v)) s

end Sys2Proof.Machine
end

