-- ==== Sys2Proof/Machine/Count.lean ====
section
/-! DEFINITION. Counting events in the performance counters (R465 to R468, R471, R472). Events the manual counts in
cycles are outside the model (assumption 4). -/
namespace Sys2Proof.Machine

/-- The kinds of counting unit (R468). -/
inductive CKind where
  | core | epb | hbm | port
  deriving DecidableEq, Repr

/-- Counters per unit (R468). -/
def CKind.per : CKind → Nat
  | .core => 48
  | .epb => 32
  | .hbm => 16
  | .port => 24

/-- The kind's lowest bit in COUNTERS.CHAIN (R472). -/
def CKind.chainLo : CKind → Nat
  | .core => 0
  | .epb => 24
  | .hbm => 40
  | .port => 48

def Counters.bank (k : CKind) (c : Counters) : SMap Counter :=
  match k with
  | .core => c.core
  | .epb => c.epb
  | .hbm => c.hbm
  | .port => c.port

def Counters.setBank (k : CKind) (m : SMap Counter) (c : Counters) : Counters :=
  match k with
  | .core => { c with core := m }
  | .epb => { c with epb := m }
  | .hbm => { c with hbm := m }
  | .port => { c with port := m }

def Counters.snapBank (k : CKind) (c : Counters) : SMap Counter :=
  match k with
  | .core => c.coreSnap
  | .epb => c.epbSnap
  | .hbm => c.hbmSnap
  | .port => c.portSnap

def Counters.setSnapBank (k : CKind) (m : SMap Counter) (c : Counters) : Counters :=
  match k with
  | .core => { c with coreSnap := m }
  | .epb => { c with epbSnap := m }
  | .hbm => { c with hbmSnap := m }
  | .port => { c with portSnap := m }

/-- Is counter `i` of a kind part of a chained pair (R467)? -/
def Counters.chained (k : CKind) (i : Nat) (c : Counters) : Bool := bit c.chain (k.chainLo + i / 2)

/-- Advance a counter modulo 2^48; OVF is set on the wrap unless it is the low half of a pair (R466, R467). -/
def Counter.advance (n : Nat) (low : Bool) (c : Counter) : Counter :=
  let v := c.value + n
  { value := v % 2 ^ 48, ovf := c.ovf || (2 ^ 48 ≤ v && !low) }

/-- Count `n` occurrences in counter `i` of unit `u` (R467, R468, R472). -/
def count (k : CKind) (u i n : Nat) (s : State) : State :=
  if !s.boot.counters || s.sealCore.conf || n = 0 then s else
  let c := s.cnt
  let m := c.bank k
  let key := k.per * u + i
  let old := SMap.get Counter.reset m key
  if !c.chained k i then
    s.modCnt (Counters.setBank k (SMap.set Counter.reset m key (old.advance n false)))
  else if i % 2 = 1 then s
  else
    let m1 := SMap.set Counter.reset m key (old.advance n true)
    let carry := (old.value + n) / 2 ^ 48
    let hi := SMap.get Counter.reset m1 (key + 1)
    s.modCnt (Counters.setBank k (if carry = 0 then m1 else SMap.set Counter.reset m1 (key + 1) (hi.advance carry false)))

def countEpb (e i n : Nat) : State → State := count .epb e i n
def countCore (c k i n : Nat) : State → State := count .core (8 * c + k) i n
def countHbm (n i v : Nat) : State → State := count .hbm n i v

/-- Port counters 0 to 15 count the traffic of the package's own partition alone, and management packets, which
belong to no partition (R471). -/
def countPort (n i v : Nat) (part : Nat) (s : State) : State :=
  if n < 88 && (16 ≤ i || i = 4 || i = 7 || s.glob.part = some part) then count .port n i v s else s

end Sys2Proof.Machine
end

