-- ==== Sys2Proof/Machine/Lines.lean ====
section
/-! DEFINITION. The symbols of a lane: Gray mapping and precoding, striping, the FEC code and its interleaving, alignment
markers, and the bits of a training frame (R329 to R333). -/
namespace Sys2Proof

/-! ### PAM4 (R329) -/

/-- The level of two bits, first bit most significant: Gray-mapped. -/
def grayLevel (hi lo : Bool) : Nat := if hi then (if lo then 2 else 3) else (if lo then 1 else 0)

/-- The two bits of a level. -/
def grayBits (x : Nat) : List Bool := [x == 2 || x == 3, x == 1 || x == 2]

/-- Levels of a bit stream, two bits each; a lone last bit waits for its partner. -/
def levelsOf : List Bool → List Nat
  | a :: b :: rest => grayLevel a b :: levelsOf rest
  | _ => []

/-- The precoded stream, after a last symbol `last`: y(n) = (x(n) − y(n−1)) mod 4. -/
def precode (last : Nat) : List Nat → List Nat
  | [] => []
  | x :: xs => (x + 4 - last) % 4 :: precode ((x + 4 - last) % 4) xs

/-- What the receiver recovers, after a last symbol `last`: x(n) = (y(n) + y(n−1)) mod 4. -/
def unprecode (last : Nat) : List Nat → List Nat
  | [] => []
  | y :: ys => (y + last) % 4 :: unprecode y ys

/-- The symbols a transmitter sends for its bits. -/
def lineSymbols (precoding : Bool) (last : Nat) (bs : List Bool) : List Nat :=
  if precoding then precode last (levelsOf bs) else levelsOf bs

/-! ### Striping (R330) -/

/-- The bytes of a frame that go to the active lane at position `i` of `w`: unit u to position u mod w, 16 bytes each. -/
def stripe (w i : Nat) (frame : List Byte) : List Byte :=
  ((List.range 16).filter fun u => u % w == i).flatMap fun u => (frame.drop (16 * u)).take 16

/-! ### RS(544,514) over GF(2^10) (R330), with the field of IEEE 802.3 Clause 91 (assumption 63) -/

/-- Twice a field element, modulo x^10 + x^3 + 1. -/
def gfDouble (a : Nat) : Nat := if a < 512 then 2 * a else (2 * a) ^^^ 0x409

/-- Product of two field elements, by the low `k` bits of the second. -/
def gfMulGo : Nat → Nat → Nat → Nat
  | 0, _, _ => 0
  | k + 1, a, b => (if b % 2 = 1 then a else 0) ^^^ gfMulGo k (gfDouble a) (b / 2)

def gfMul (a b : Nat) : Nat := gfMulGo 10 a b

/-- Add `c` times one list of coefficients to another, place by place. -/
def gfAddTo (c : Nat) : List Nat → List Nat → List Nat
  | a :: as, b :: bs => (a ^^^ gfMul c b) :: gfAddTo c as bs
  | as, _ => as

/-- The generator's coefficients below its leading one, from the highest: the product of x + α^j for j below `k`. -/
def rsGenGo : Nat → Nat → List Nat → List Nat
  | 0, _, g => g
  | k + 1, root, g => rsGenGo k (gfDouble root) (gfAddTo root (g ++ [0]) (1 :: g))

def rsGenerator : List Nat := rsGenGo 30 1 []

/-- The 30 check symbols: the remainder of the message, symbol by symbol. -/
def rsCheck (gen : List Nat) (msg : List Nat) : List Nat :=
  msg.foldl (fun r m => gfAddTo (m ^^^ r.headD 0) (r.drop 1 ++ [0]) gen) (List.replicate 30 0)

/-- A codeword: 514 message symbols and their check symbols. -/
def rsEncode (msg : List Nat) : List Nat := msg ++ rsCheck rsGenerator msg

/-- Symbol errors a codeword may have and be corrected (R330, R351). -/
def rsCorrects (errors : Nat) : Bool := errors ≤ 15

/-- Ten-bit symbols of a byte string, least significant bits first. -/
def symbolsOf (n : Nat) (bs : List Byte) : List Nat :=
  let v := leVal bs
  (List.range n).map fun i => v / 2 ^ (10 * i) % 1024

/-- Four codewords interleaved symbol by symbol, in codeword order. -/
def interleave4 (a b c d : List Nat) : List Nat :=
  (List.range 544).flatMap fun i => [a.getD i 0, b.getD i 0, c.getD i 0, d.getD i 0]

/-- Bytes of a lane that fill four codewords. -/
def groupBytes : Nat := 2570

/-- The line symbols of four codewords' bytes. -/
def encodeGroup (bs : List Byte) : List Nat :=
  let cw := fun i => rsEncode ((symbolsOf 2056 bs).drop (514 * i) |>.take 514)
  interleave4 (cw 0) (cw 1) (cw 2) (cw 3)

/-- The coded symbols of `k` groups of a lane's bytes. -/
def encodeGroups : Nat → List Byte → List Nat
  | 0, _ => []
  | k + 1, bs => encodeGroup (bs.take groupBytes) ++ encodeGroups k (bs.drop groupBytes)

/-! ### Alignment markers (R331) -/

/-- Bytes of a lane between two markers: 16,384 codewords, or 256 while the lane trains or rejoins. -/
def markerBytes (fast : Bool) : Nat := groupBytes * (if fast then 64 else 4096)

/-- The 8-bit interleaved parity of a lane's coded symbols: bit i covers every eighth bit from i. -/
def parity8 (syms : List Nat) : Nat :=
  let v := syms.foldr (fun x r => x + 1024 * r) 0
  (List.range (cdiv (10 * syms.length) 8)).foldl (fun p i => p ^^^ v / 256 ^ i % 256) 0

/-! ### Training frames (R333) -/

def TapReq.code : TapReq → Nat
  | .hold => 0
  | .increment => 1
  | .decrement => 2
  | .reserved => 3

def TapReq.ofCode (n : Nat) : TapReq :=
  match n % 4 with
  | 0 => .hold
  | 1 => .increment
  | 2 => .decrement
  | _ => .reserved

def TapStat.code : TapStat → Nat
  | .notUpdated => 0
  | .updated => 1
  | .atLimit => 2
  | .refused => 3

def TapStat.ofCode (n : Nat) : TapStat :=
  match n % 4 with
  | 0 => .notUpdated
  | 1 => .updated
  | 2 => .atLimit
  | _ => .refused

/-- Five two-bit fields, from c(−3) up. -/
def tapBits {α : Type} (f : α → Nat) (t : Taps α) : Nat :=
  f t.m3 + fld 2 (f t.m2) + fld 4 (f t.m1) + fld 6 (f t.c0) + fld 8 (f t.p1)

def tapsOf {α : Type} (f : Nat → α) (v : Nat) : Taps α :=
  { m3 := f (bits v 1 0), m2 := f (bits v 3 2), m1 := f (bits v 5 4), c0 := f (bits v 7 6), p1 := f (bits v 9 8) }

/-- Bits [31:0] of every training frame. -/
def trainSync : Nat := 0x5A3C96E1

/-- Bits [111:0] of a training frame. -/
def TrainFrame.body (f : TrainFrame) : Nat :=
  trainSync + fld 32 f.lane.val + fld 34 f.portOff.val + fld 36 f.state.val + fld 40 f.vers.val + fld 43 (b2n f.precodeReq)
  + fld 44 f.preset.val + fld 46 (tapBits TapReq.code f.req) + fld 56 (tapBits TapStat.code f.stat) + fld 66 (b2n f.done)

/-- CRC of bits [111:0], with the parameters of R75. -/
def trainCrc (body : Nat) : Nat := crc16 (leBytes 14 body)

/-- The 128 bits of a training frame. -/
def TrainFrame.word (f : TrainFrame) : BitVec 128 := BitVec.ofNat 128 (f.body + fld 112 (trainCrc f.body))

/-- A training frame from its bits: none without its SYNC, or with a CRC that fails. -/
def TrainFrame.ofWord (w : BitVec 128) : Option TrainFrame :=
  let v := w.toNat
  if bits v 31 0 != trainSync || bits v 127 112 != trainCrc (bits v 111 0) then none
  else some
    { lane := Fin.ofNat 4 (bits v 33 32), portOff := Fin.ofNat 4 (bits v 35 34), state := Fin.ofNat 16 (bits v 39 36),
      vers := Fin.ofNat 8 (bits v 42 40), precodeReq := bit v 43, preset := Fin.ofNat 4 (bits v 45 44),
      req := tapsOf TapReq.ofCode (bits v 55 46), stat := tapsOf TapStat.ofCode (bits v 65 56), done := bit v 66 }

end Sys2Proof
end

