-- ==== Sys2Proof/Machine/LinkTx.lean ====
section
/-! DEFINITION. The sending side of a fabric port: link frames, slots, the retry buffer and the credit field (R316,
R338 to R341). -/
namespace Sys2Proof.Machine

/-! ### Active lanes (R342) -/

/-- The active lanes that follow from the failed set F (R342). -/
def chooseLanes (f : Nat) : Nat :=
  if f % 16 = 0 then 15
  else if f % 4 = 0 then 3
  else if f / 4 % 4 = 0 then 12
  else match (List.range 4).find? fun k => !bit f k with
    | some k => 2 ^ k
    | none => 0

def laneCount (m : Nat) : Nat := (bitsOf 4 m).length

def Port.lane (p : Port) (k : Nat) : Lane := SMap.get Lane.reset p.lanes k
def Port.modLane (k : Nat) (f : Lane → Lane) (p : Port) : Port := { p with lanes := SMap.upd Lane.reset p.lanes k f }

/-- A lane as it enters DETECT: preset 1, nothing agreed, fast markers. The receiver asks for precoding unless
NO_PRECODE is set (R329, R331, assumption 30). -/
def Lane.fresh (noPrecode : Bool) (l : Lane) : Lane :=
  { l with locked := false, taps := { m3 := 0, m2 := 0, m1 := 0, c0 := 64, p1 := 0 }, ts := .detect, peerVers := 0,
           precodeTx := false, precodeReq := !noPrecode, doneRx := false, doneTx := false, req := Taps.all .hold,
           presetReq := 0, release := false, handshakes := 0, stat := Taps.all .notUpdated, fast := true, txBytes := 0 }

/-- A lane that has just failed, or is taken for recalibration, retrains alone: its first try (R344). -/
def Port.retrainLane (k : Nat) (p : Port) : Port := p.modLane k fun l => { l.fresh p.noPrecode with tries := 1 }

/-- The lanes of `f` that are not yet in F. -/
def Port.newlyFailed (f : Nat) (p : Port) : List Nat := [0, 1, 2, 3].filter fun k => bit f k && !bit p.failed k

/-- Both directions run on the lanes F leaves from now on (R342 to R344, R346). Lanes that join them, and the rest, have
their markers at the usual spacing again (R331, R344). -/
def Port.setFailed (f : Nat) (p : Port) : Port :=
  let m := chooseLanes f
  (bitsOf 4 m).foldl (fun p k => p.modLane k fun l => { l with fast := false })
    { p with failed := f, lanesOn := m, widthChanges := if m = p.lanesOn then p.widthChanges else cnt16 p.widthChanges }

/-- Change a port's record; a change of its active lanes counts (R468). -/
def State.modLanes (n : Nat) (f : Port → Port) (s : State) : State :=
  let s' := s.modPort n f
  if (s'.port n).lanesOn = (s.port n).lanesOn then s' else countPort n 20 1 0 s'

/-- A change of lanes agreed for a named SEQ takes effect (R344, R346): a lane taken for recalibration then retrains, at
both ends, and one that has rejoined is no longer being recalibrated. -/
def Port.applyChange (c : WidthChange) (p : Port) : Port :=
  let wider := laneCount p.lanesOn < laneCount (chooseLanes c.failed)
  let fresh := p.newlyFailed c.failed
  let p' := p.setFailed c.failed
  let p' := fresh.foldl (fun p k => p.retrainLane k) { p' with evRestore := p'.evRestore || wider }
  match p.recalLane with
  | none => p'
  | some k => if bit c.failed k then p' else { p' with recalLane := none, recalWant := none }

def LaneState.code : LaneState → Nat
  | .idle => 0
  | .detect => 1
  | .cap => 2
  | .rate => 3
  | .tap => 4
  | .align => 5
  | .active => 6

/-- The training frame a lane sends (R333). -/
def trainWord (n k : Nat) (p : Port) : TrainFrame :=
  let l := p.lane k
  { lane := Fin.ofNat 4 k, portOff := Fin.ofNat 4 n, state := Fin.ofNat 16 l.ts.code, vers := Fin.ofNat 8 (2 ^ p.maxVer - 1),
    precodeReq := l.precodeReq, preset := Fin.ofNat 4 l.presetReq, req := l.req, stat := l.stat, done := l.doneTx }

/-- A lane sends a training frame (R333); its repetition every 8,192 symbols takes no command (assumption 63). -/
def sendTrain (n k : Nat) (s : State) : State := s.emit (.train n k (trainWord n k (s.port n)).word)

/-- Lanes that start to retrain send their first training frame. -/
def sendTrains (n : Nat) (l : List Nat) (s : State) : State := forEach l (sendTrain n) s

/-! ### Frames -/

/-- Bytes 0 to 247 of a frame (R338). -/
def frameBody (type : FrameType) (f : Frame) : List Byte :=
  leBytes 8 (f.seq.toNat + fld 16 f.ack.toNat + fld 32 type.code + fld 35 f.pstart.toNat + fld 40 f.pad.toNat
    + fld 45 f.cvc.toNat + fld 48 f.ccnt.toNat + fld 59 f.replay.toNat + fld 60 f.rsv.toNat) ++ fitBytes 240 f.data

/-- The CRC a frame should carry (R338). -/
def frameCrc (type : FrameType) (f : Frame) : Quad := BitVec.ofNat 64 (crc64 (frameBody type f))

/-- The VC whose credit the next frame returns: in turn among those whose count has changed, or all in turn while none
has (R340). -/
def creditVc (p : Port) : Nat :=
  let order := (List.range 8).map fun i => (p.cvcNext + i) % 8
  match order.find? fun v => SMap.get 0 p.retCells v != SMap.get 0 p.sentCells v with
  | some v => v
  | none => p.cvcNext

/-- The bytes this package has put on a lane, oldest first (R330). -/
def laneBytes (n k : Nat) (out : List Output) : List Byte :=
  out.reverse.flatMap fun o => match o with
    | .frame m lanes type f =>
      if m = n && bit lanes k then
        stripe (laneCount lanes) ((bitsOf 4 lanes).filter (· < k)).length (frameBody type f ++ leBytes 8 f.crc.toNat)
      else []
    | _ => []

/-- The parity of the marker that ends a lane's last `len` bytes but the newest `past` (R331). -/
def markerParity (n k len past : Nat) (out : List Output) : Nat :=
  let bs := laneBytes n k out
  parity8 (encodeGroups (len / groupBytes) ((bs.take (bs.length - past)).drop (bs.length - past - len)))

/-- One lane has carried `b` bytes more; its alignment marker follows when it is due (R331). -/
def lineAdvance (n b k : Nat) (s : State) : State :=
  let l := (s.port n).lane k
  let len := markerBytes l.fast
  if l.txBytes + b < len then s.modPort n (Port.modLane k fun l => { l with txBytes := l.txBytes + b })
  else
    let past := l.txBytes + b - len
    (s.modPort n (Port.modLane k fun l => { l with txBytes := past })).emit
      (.marker n k (n % 4) (markerParity n k len past s.out))

/-- Is `n` the port that stands in for a THROUGH grant's OUT while OUT is down (R295, assumption 64)? -/
def standsIn (s : State) (n out : Nat) : Bool :=
  let b := out / 4
  n / 4 = b && (s.port out).state != .up &&
  ([4 * b, 4 * b + 1, 4 * b + 2, 4 * b + 3].find? fun m => (s.port m).state == .up) == some n

/-- Is the port on transit duty (R316)? -/
def transitDuty (s : State) (n : Nat) : Bool :=
  (s.port n).tmode != .none ||
  s.ports.any fun q => q.2.tmode == .through && (q.2.tout == n || standsIn s n q.2.tout)

/-- Send one frame with the present ACK, credit and REPLAY fields, and count its slot (R316, R338, R340). -/
def emitFrame (n : Nat) (type : FrameType) (seq pstart pad : Nat) (data : List Byte) (s : State) : State :=
  let p := s.port n
  let v := creditVc p
  let f0 : Frame :=
    { seq := BitVec.ofNat 16 seq, ack := BitVec.ofNat 16 p.rxSeq, pstart := BitVec.ofNat 5 pstart,
      pad := BitVec.ofNat 5 pad, cvc := BitVec.ofNat 3 v, ccnt := BitVec.ofNat 11 (SMap.get 0 p.retCells v),
      replay := if p.askReplay then 1 else 0, rsv := 0, data := fitBytes 240 data, crc := 0 }
  let s := s.emit (.frame n p.lanesOn type { f0 with crc := frameCrc type f0 })
  let lanes := bitsOf 4 p.lanesOn
  let s := forEach lanes (lineAdvance n (256 / lanes.length)) s
  let next := (p.frameNo + 1) % s.sw.tperiod
  let duty := if next = 0 then transitDuty s n else p.onDuty
  let now := s.now
  let s := s.modPort n fun p =>
    { p with cvcNext := (v + 1) % 8, sentCells := SMap.set 0 p.sentCells v (SMap.get 0 p.retCells v),
             frameNo := next, onDuty := duty,
             dataTimes := if type = .data then now :: p.dataTimes.filter (fun t => now < t + 100000) else p.dataTimes }
  if type = .idle then countPort n 22 1 0 s else wakeDomain (portDom n) s

/-- An IDLE frame: no packet starts and all of it is padding. -/
def sendIdle (n : Nat) (s : State) : State := emitFrame n .idle (s.port n).txSeq 31 0 [] s

/-- Is the port's next frame a reserved slot (R316)? -/
def slotReserved (s : State) (n : Nat) : Bool :=
  let p := s.port n
  p.onDuty && p.frameNo % s.sw.tperiod < s.sw.tslots

/-- May a frame of this type take the port's next slot (R316)? -/
def slotFits (s : State) (n : Nat) (type : FrameType) : Bool :=
  match type with
  | .dataT => slotReserved s n
  | .data => !slotReserved s n
  | .ctrl => !slotReserved s n
  | .idle => true
  | .degrade => true

/-- IDLE frames until a slot of the type comes. -/
def idleUntil (n : Nat) (type : FrameType) : Nat → State → State
  | 0, s => s
  | k + 1, s => if slotFits s n type then s else idleUntil n type k (sendIdle n s)

/-- Can a frame of this type be sent at all: DATA_T waits for reserved slots, which only a port on transit duty has
(R316, assumption 64)? -/
def slotComes (s : State) (n : Nat) (type : FrameType) : Bool := type != .dataT || (s.port n).onDuty || transitDuty s n

/-- Idle until a slot of the frame's kind comes: none if none will (R316). -/
def reachSlot (n : Nat) (type : FrameType) (s : State) : Option State :=
  if !slotComes s n type then none
  else
    let s' := idleUntil n type 512 s
    if slotFits s' n type then some s' else none

/-- Send or resend a sequenced frame in a slot of its own kind; the frame waits where no such slot will come. -/
def emitInSlot (n : Nat) (f : SentFrame) (s : State) : State :=
  match reachSlot n f.type s with
  | none => s
  | some s' => emitFrame n f.type f.seq f.pstart f.pad f.data s'

/-- Has the retry buffer room for one more sequenced frame (R341)? -/
def retryRoom (s : State) (n : Nat) : Bool := (s.port n).retry.length < 1024

/-- Send a new sequenced frame, where a slot of its kind comes, and keep it in the retry buffer (R340, R341). -/
def sendSequenced (n : Nat) (type : FrameType) (c : Chunk) (s : State) : State :=
  match reachSlot n type s with
  | none => s
  | some s =>
    let seq := ((s.port n).txSeq + 1) % 2 ^ 16
    let f : SentFrame := { seq := seq, type := type, pstart := c.pstart, pad := c.pad, data := c.data }
    let due := (s.port n).txChange.filter fun ch => ch.atSeq == seq
    let fresh := match due with
      | none => []
      | some ch => (s.port n).newlyFailed ch.failed
    let s := raising (State.modLanes n fun p =>
      let p := { p with txSeq := seq, retry := p.retry ++ [f] }
      match due with
      | none => p
      | some ch => { p.applyChange ch with txChange := none }) s
    sendTrains n fresh (emitFrame n type seq c.pstart c.pad c.data s)

/-- Send waiting data while the retry buffer has room: DATA chunks, and DATA_T chunks in reserved slots, while the port
has any (R316, R341). -/
def pumpGo (n : Nat) : Nat → State → State
  | 0, s => s
  | k + 1, s =>
    let p := s.port n
    if p.state != .up || !retryRoom s n then s
    else
      match p.txT, p.txD with
      | t :: ts, d :: ds =>
        if slotReserved s n then pumpGo n k (sendSequenced n .dataT t (s.modPort n fun p => { p with txT := ts }))
        else pumpGo n k (sendSequenced n .data d (s.modPort n fun p => { p with txD := ds }))
      | t :: ts, [] =>
        match reachSlot n .dataT s with
        | none => s
        | some s => pumpGo n k (sendSequenced n .dataT t (s.modPort n fun p => { p with txT := ts }))
      | [], d :: ds => pumpGo n k (sendSequenced n .data d (s.modPort n fun p => { p with txD := ds }))
      | [], [] => s

def pumpPort (n : Nat) (s : State) : State :=
  pumpGo n ((s.port n).txT.length + (s.port n).txD.length) s

/-- Cut a packet's bytes into frame data: it starts its first frame, and padding follows its last byte (R339). -/
def chunksGo : Nat → Bool → List Byte → List Chunk
  | 0, _, _ => []
  | k + 1, first, bs =>
    if bs.isEmpty then [] else
    { pstart := if first then 0 else 31, pad := if bs.length < 240 then bs.length / 8 else 30, data := bs.take 240 }
      :: chunksGo k false (bs.drop 240)

def packetChunks (p : Packet) : List Chunk := chunksGo (p.bytes.length / 240 + 1) true p.bytes

/-- Hand a packet to the link: DATA_T for VC7, DATA for the rest (R339). -/
def linkSend (n : Nat) (p : Packet) (s : State) : State :=
  let cs := packetChunks p
  pumpPort n (s.modPort n fun q =>
    if p.hdr.vc = 7 then { q with txT := q.txT ++ cs } else { q with txD := q.txD ++ cs })

/-- Is the port live, and so a candidate (R281, R336)? -/
def State.live (s : State) (n : Nat) : Bool := (s.port n).state == .up

end Sys2Proof.Machine
end

