-- ==== Sys2Proof/Machine/TeBase.lean ====
section
/-! DEFINITION. Transfer-engine commands and their packets: the fields of a command, TID slots, streams at the source,
and the end of a packet and of a command (R83, R84, R117 to R120, R368). -/
namespace Sys2Proof.Machine

/-! ### Fields of a submission entry (13, R368) -/

/-- A field [hi:lo] of the 64-bit word at byte `b` of an entry. -/
def entFld (e : List Byte) (b hi lo : Nat) : Nat := bits (leAt e b 8) hi lo

def entOpcode (e : List Byte) : Nat := leAt e 0 1
def entOrder (e : List Byte) : Bool := bit (leAt e 0 8) 8
def entIrq (e : List Byte) : Bool := bit (leAt e 0 8) 9
def entF (e : List Byte) : Bool := bit (leAt e 0 8) 10
def entSeal (e : List Byte) : Bool := bit (leAt e 0 8) 11
def entVerify (e : List Byte) : Bool := bit (leAt e 0 8) 12
def entMeasure (e : List Byte) : Bool := bit (leAt e 0 8) 13
def entOpt (e : List Byte) : Bool := bit (leAt e 0 8) 14
def entStag (e : List Byte) : Nat := entFld e 0 21 16
def entStep (e : List Byte) : Nat := entFld e 0 47 32
def entTag (e : List Byte) : Nat := entFld e 0 63 48
def entSrc (e : List Byte) : Nat := leAt e 8 8
def entDst (e : List Byte) : Nat := leAt e 16 8
def entLength (e : List Byte) : Nat := entFld e 24 36 0
def entSrcSpace (e : List Byte) : Nat := entFld e 24 42 40
def entDstSpace (e : List Byte) : Nat := entFld e 24 46 44
def entAttr (e : List Byte) : Nat := entFld e 24 55 48
def entWgen (e : List Byte) : Nat := entFld e 24 63 56
def entPcnt (e : List Byte) : Nat := entFld e 32 15 0
def entLevel (e : List Byte) : Nat := entFld e 32 19 16
def entIndex (e : List Byte) : Nat := entFld e 32 31 20
def entOperand (e : List Byte) : Nat := leAt e 40 8
def entOperand2 (e : List Byte) : Nat := leAt e 48 8

/-- Command codes (R369). -/
def ocCopy : Nat := 0x01
def ocVerify : Nat := 0x02
def ocPut : Nat := 0x03
def ocGet : Nat := 0x04
def ocMput : Nat := 0x05
def ocRput : Nat := 0x06
def ocOput : Nat := 0x07
def ocLseput : Nat := 0x08
def ocAtomic : Nat := 0x09
def ocPrefetch : Nat := 0x0A
def ocCommit : Nat := 0x0B

/-- Does the command send packets? -/
def entRemote (e : List Byte) : Bool := 0x03 ≤ entOpcode e && entOpcode e ≤ 0x09

/-- The global address of a remote command: SRC of a GET, DST of the others. -/
def entGlobal (e : List Byte) : Nat := if entOpcode e == ocGet then entSrc e else entDst e

/-- The operation code of a command's packets (R369). -/
def entFabricOp (e : List Byte) : Nat :=
  let o := entOpcode e
  if o == ocPut then opStore
  else if o == ocGet then opLoad
  else if o == ocMput then opMcast
  else if o == ocRput then (if entAttr e % 16 == 8 then opWreduce else opReduce)
  else if o == ocOput then opOreduce
  else if o == ocLseput then opLse
  else if entAttr e / 16 == 0 then opCswap else opFetch

/-- A command as it joins a TE queue: what every origin gives it; its checks and its phase are set by who places it. -/
def freshCmd (id : Nat) (o : Origin) (entry : List Byte) (das : Nat) (phase : CmdPhase) (data : List Byte) : TeCmd where
  id := id
  origin := o
  entry := entry
  das := das
  verdict := none
  started := false
  phase := phase
  trans := []
  pkts := []
  result := 0
  detail := 0
  failAddr := if entRemote entry then entGlobal entry else entSrc entry
  failDpa := 0
  failOff := 0
  reserved := false
  hport := 0
  hgen := 0
  pasid := none
  cq := 0
  mx := 0
  data := data
  cur := 0
  acc := 0

/-! ### TID slots and streams -/

def Te.slotAt (te : Te) (i : Nat) : Slot := SMap.get .free te.slots i
def Te.setSlot (i : Nat) (v : Slot) (te : Te) : Te := { te with slots := SMap.set .free te.slots i v }

/-- Is the TE stalled on a fault (R372)? -/
def Te.stalled (te : Te) : Bool := !te.fault.isEmpty

/-- The number of a TE within its cluster and the slot within the TE that a TID names (R84). -/
def tidTe (tid : Nat) : Nat := tid / 512
def tidSlot (tid : Nat) : Nat := tid % 512

/-- Is a packet part of a stream: a STORE, MCAST_STORE or carry (R115)? -/
def inStream (op : Nat) : Bool := op == opStore || op == opMcast || op == opCarry

/-- The source's stream a packet belongs to: per group and tag for multicast (R118). -/
def streamKey (h : Header) : Nat :=
  64 * h.dnode.toNat + h.stag.toNat + (if h.op.toNat == opMcast then 2 ^ 18 else 0)

def Te.stream (te : Te) (k : Nat) : SrcStream := SMap.get SrcStream.reset te.streams k
def Te.modStream (k : Nat) (f : SrcStream → SrcStream) (te : Te) : Te :=
  { te with streams := SMap.upd SrcStream.reset te.streams k f }

/-- An acknowledgement of the packet with this TID opens its gate (R118). -/
def gateAck (h : Header) (tid : Nat) (te : Te) : Te :=
  if !inStream h.op.toNat then te
  else te.modStream (streamKey h) fun m =>
    { m with open_ := m.open_.filter (· != tid), closed := m.closed.filter (· != tid),
             flag := if m.flag == some tid then none else m.flag }

/-- A packet that the package's own switch refused was not sent: it counts for nothing (R30, R117, R120, R281). -/
def streamUnsend (h : Header) (tid : Nat) (te : Te) : Te :=
  if !inStream h.op.toNat then te
  else te.modStream (streamKey h) fun m =>
    if h.f = 1 then
      if m.flag == some tid then
        { count := m.count + h.cnt.toNat, open_ := m.closed.filter m.shut.contains ++ m.open_,
          closed := m.closed.filter fun i => !m.shut.contains i, shut := [], flag := none }
      else m
    else if m.open_.contains tid then { m with count := m.count - 1, open_ := m.open_.filter (· != tid) }
    else { m with closed := m.closed.filter (· != tid) }

/-- May the packet be sent under the gate of its stream (R118)? -/
def gateOpen (te : Te) (h : Header) : Bool :=
  if !inStream h.op.toNat then true
  else
    let m := te.stream (streamKey h)
    if h.f == 1 then m.flag.isNone else m.closed.isEmpty

/-! ### Packets and commands -/

def Te.cmd (te : Te) (id : Nat) : Option TeCmd := te.queue.find? fun q => q.id == id
def Te.modCmd (id : Nat) (f : TeCmd → TeCmd) (te : Te) : Te :=
  { te with queue := te.queue.map fun q => if q.id == id then f q else q }

/-- Status of a finished packet, if it has one. -/
def CmdPkt.status (p : CmdPkt) : Option Nat :=
  match p.state with
  | .done st => some st
  | _ => none

def TeCmd.allDone (q : TeCmd) : Bool := q.pkts.all fun p => p.status.isSome

/-- The lowest-addressed packet that failed (R83). -/
def TeCmd.firstFail (q : TeCmd) : Option CmdPkt :=
  q.pkts.find? fun p => match p.status with | some st => st != stOk | none => false

/-- A failed command that sent counted stores, flags or carries clears their streams' counts and gates (R120). -/
def clearStreams (q : TeCmd) (te : Te) : Te :=
  q.pkts.foldl (fun te p =>
    if p.sent && inStream p.pkt.hdr.op.toNat then
      te.modStream (streamKey p.pkt.hdr) fun _ => SrcStream.reset
    else te) te

/-- End a command with a status; its completion is reported in queue order (R113). -/
def endCmd (c t id status : Nat) (s : State) : State :=
  s.modTe c t fun te =>
    match te.cmd id with
    | none => te
    | some q =>
      let te := if status == stOk then te else clearStreams q te
      te.modCmd id fun q => { q with phase := .done status }

/-- A running command whose packets have all ended ends with the status of the lowest-addressed failure (R83). -/
def settleCmd (c t id : Nat) (s : State) : State :=
  match (s.te c t).cmd id with
  | none => s
  | some q =>
    if q.phase != .running || q.pkts.isEmpty || !q.allDone then s
    else
      match q.firstFail with
      | none => endCmd c t id stOk s
      | some p =>
        let s := s.modTe c t (Te.modCmd id fun q =>
          { q with detail := if q.pkts.length = 1 then 0 else p.off, failAddr := entGlobal q.entry + p.off, failOff := p.off })
        endCmd c t id (p.status.getD stOk) s

/-- The command and packet that hold a TID slot. -/
def slotOwner (s : State) (c t i : Nat) : Option (Nat × Nat) :=
  match (s.te c t).slotAt i with
  | .busy id k => some (id, k)
  | _ => none

/-- The packet a TID slot carries. -/
def slotPkt (s : State) (c t i : Nat) : Option CmdPkt :=
  match slotOwner s c t i with
  | none => none
  | some (id, k) => ((s.te c t).cmd id).bind fun q => q.pkts[k]?

/-- How a packet ended: with a response, without one, or unsent. -/
inductive PktEnd where
  | answered | lost | refused
  deriving DecidableEq, Repr

/-- What the end of a packet does to its stream. A loss leaves the gate shut until its command ends (R118, R120). -/
def streamEnd (w : PktEnd) (h : Header) (tid : Nat) (te : Te) : Te :=
  match w with
  | .answered => gateAck h tid te
  | .lost => te
  | .refused => streamUnsend h tid te

/-- End the packet of a TID slot with a status, leave the slot as said, and settle its command. -/
def packetEnd (w : PktEnd) (c t i status : Nat) (slot : Slot) (s : State) : State :=
  match slotOwner s c t i, slotPkt s c t i with
  | some (id, k), some p =>
    let s := s.modTe c t fun te =>
      ((streamEnd w p.pkt.hdr (512 * t + i) te).setSlot i slot).modCmd id fun q =>
        { q with pkts := modAt (fun p => { p with state := .done status, sent := p.sent && w != .refused }) q.pkts k }
    settleCmd c t id s
  | _, _ => s

/-- A response ends its packet. -/
def packetDone : Nat → Nat → Nat → Nat → Slot → State → State := packetEnd .answered

/-- End the packet with this TID at an endpoint at once, as its source (R30, R281): unless it is a resend, it was never
sent. -/
def failAtSource (e tid status : Nat) (s : State) : State :=
  let t := tidTe tid
  let i := tidSlot tid
  let resent := match slotPkt s e t i with
    | some p => p.tries != 0
    | none => false
  packetEnd (if resent then .lost else .refused) e t i status .free s

end Sys2Proof.Machine
end

