-- ==== Sys2Proof/Machine/Switch.lean ====
section
/-! DEFINITION. The switch: the grid, route choice, the cell buffer, Prism, the combiner, shapers and policers, and the
way of one packet through it (01, 10, 11). -/
namespace Sys2Proof.Machine

/-! ### The grid (R22) -/

/-- The neighbour that bundle `b` of position `x` faces (R22). -/
def neighbour (x b : Nat) : Nat :=
  let r := x / 12
  let c := x % 12
  if b < 11 then 12 * r + (if b < c then b else b + 1)
  else 12 * (if b - 11 < r then b - 11 else b - 10) + c

/-- dist of R281's section: 0 for the same position, 1 in one row or column, else 2. -/
def dist (x y : Nat) : Nat := if x = y then 0 else if x / 12 = y / 12 || x % 12 = y % 12 then 1 else 2

def rowBundle (b : Nat) : Bool := b < 11

/-- The ports of a bundle. -/
def bundlePorts (b : Nat) : List Nat := [4 * b, 4 * b + 1, 4 * b + 2, 4 * b + 3]

/-! ### Queues -/

/-- Cells of a packet (R301). -/
def cellsOf (p : Packet) : Nat := cdiv p.size 256

def Switch.queue (w : Switch) (o v : Nat) : List QPkt := SMap.get [] w.queues (8 * o + v)
def Switch.setQueue (o v : Nat) (q : List QPkt) (w : Switch) : Switch :=
  { w with queues := SMap.set [] w.queues (8 * o + v) q }

/-- Cells queued for an output on a VC. -/
def queueCells (s : State) (o v : Nat) : Nat := ((s.sw.queue o v).map fun q => cellsOf q.pkt).foldl (· + ·) 0

/-! ### Header roles -/


def isResp (h : Header) : Bool := 0x80 ≤ h.op.toNat

/-- VC of a packet on the link with hop index `j` (R278). -/
def hopVc (h : Header) (j : Nat) : Nat := if isResp h then 4 + min j 2 else 1 + min j 2

/-- The transit grant in force on a port: in FENCED and CLEARING every grant is suspended (R295, R412). -/
def grantMode (s : State) (n : Nat) : TransitMode :=
  if s.glob.state = .fenced || s.glob.state = .clearing then .none else (s.port n).tmode

/-- An EDGE grant for the packet's partition sends it through the port on VC7 (R295). -/
def edgeFor (s : State) (n part : Nat) : Bool := grantMode s n == .edge && (s.port n).tpart == part

/-- VC of a routed packet on a fabric port. -/
def outVc (s : State) (n : Nat) (h : Header) (j : Nat) : Nat :=
  if h.vc = 0 then 0 else if edgeFor s n h.part.toNat then 7 else hopVc h j

/-- Is the port closed to the packet by a fence (R30, R295)? -/
def fencedFor (s : State) (n part : Nat) : Bool := (s.port n).fenced && !edgeFor s n part

/-! ### Route choice (R281 to R284) -/

inductive Route where
  | port (n : Nat) (detour : Bool)
  /-- every permitted port is fenced (R30) -/
  | fenced
  | none
  deriving DecidableEq, Repr

def State.pos (s : State) : Nat := s.glob.position

/-- Bundles towards which the packet may take the link with hop index `j`. -/
def hopOk (s : State) (dest j b : Nat) : Bool := dist (neighbour s.pos b) dest + j ≤ 2

/-- Minimal bundles under ORDER (R281 step 1). -/
def minimalBundles (s : State) (dest order j : Nat) : List Nat :=
  filterBelow 22 fun b =>
    dist (neighbour s.pos b) dest + 1 == dist s.pos dest && hopOk s dest j b &&
    (dist s.pos dest != 2 || order == 0 || (order == 1 && rowBundle b) || (order == 2 && !rowBundle b))

/-- Detour bundles (R281 step 2). -/
def detourBundles (s : State) (dest j : Nat) : List Nat :=
  filterBelow 22 fun b => dist s.pos dest ≤ dist (neighbour s.pos b) dest && hopOk s dest j b

/-- The candidate with the fewest queued cells; ties to the lowest port (R281 step 3). -/
def lightest (cells : Nat → Nat) : List Nat → Option Nat
  | [] => none
  | n :: ns =>
    match lightest cells ns with
    | none => some n
    | some m => if cells m < cells n then some m else some n

/-- Adaptive choice among minimal and detour ports (R281): a detour holding fewer cells than half of DETOUR_THRESH where
every minimal port holds more than it. In a sealed partition a detour goes only through a member, which an unfenced port
faces (R29). -/
def adaptiveRoute (s : State) (h : Header) (j : Nat) (mins dets : List Nat) : Route :=
  let usable := fun n => s.live n && !fencedFor s n h.part.toNat
  let cells := fun n => queueCells s n (outVc s n h j)
  let offered := fun n => usable n && !(s.glob.sealed_ && (s.port n).fenced)
  match lightest cells (mins.filter usable), lightest cells (dets.filter offered) with
  | some m, some d =>
    if s.sw.detour < cells m && 2 * cells d < s.sw.detour then .port d true else .port m false
  | some m, none => .port m false
  | none, some d => .port d true
  | none, none =>
    let all := mins ++ dets
    if !all.isEmpty && all.all (fun n => fencedFor s n h.part.toNat) then .fenced else .none

/-- Fixed choice within a bundle: from offset (SNODE + DNODE) mod 4, ascending and wrapping (R282). -/
def fixedRoute (s : State) (h : Header) (fences : Bool) (b : Nat) : Route :=
  let o := (h.snode.toNat + h.dnode.toNat) % 4
  let order := [4 * b + o, 4 * b + (o + 1) % 4, 4 * b + (o + 2) % 4, 4 * b + (o + 3) % 4]
  match order.find? fun n => s.live n && !(fences && fencedFor s n h.part.toNat) with
  | some n => .port n false
  | none => if fences && order.all (fun n => fencedFor s n h.part.toNat) then .fenced else .none

/-- The routing entry of a header's destination slot in the version its EP names. -/
def routeEntry (s : State) (h : Header) : RouteEntry :=
  SMap.get RouteEntry.reset s.sw.routes (256 * h.ep.toNat + h.dnode.toNat / 16)

/-- The port a routed packet takes for the link with hop index `j` (R281 to R284). -/
def routeOf (s : State) (h : Header) (j : Nat) : Route :=
  let e := routeEntry s h
  if !e.valid || e.dpos = s.pos then .none
  else if h.vc = 0 then
    match minimalBundles s e.dpos 1 j with
    | b :: _ => fixedRoute s h false b
    | [] => .none
  else if e.expl then
    if !hopOk s e.dpos j e.next then .none
    else if s.sw.fixed then fixedRoute s h true e.next
    else adaptiveRoute s h j (bundlePorts e.next) []
  else if s.sw.fixed then
    match minimalBundles s e.dpos (if e.order = 2 then 2 else 1) j with
    | b :: _ => fixedRoute s h true b
    | [] => .none
  else
    adaptiveRoute s h j ((minimalBundles s e.dpos e.order j).flatMap bundlePorts)
      (if e.adapt then (detourBundles s e.dpos j).flatMap bundlePorts else [])

/-! ### Switch counters (R298) -/

def noteNoRoute (s : State) : State :=
  raising (State.modSw fun w => { w with noRoute := cnt32 w.noRoute, evNoRoute := true }) s
def noteHopLimit (s : State) : State :=
  raising (State.modSw fun w => { w with hopLimit := cnt32 w.hopLimit, evHopLimit := true }) s
def noteHdrErr (s : State) : State := s.modSw fun w => { w with hdrErr := cnt32 w.hdrErr }
def noteDownDrop (s : State) : State := s.modSw fun w => { w with downDrop := cnt32 w.downDrop }
/-- A packet discarded at a fence: each packet counts one (R30, R276, R294; assumption 84). -/
def noteFenceDrop (n : Nat) (s : State) : State :=
  countPort n 23 1 0 (s.modPort n fun p => { p with fenceDrop := cnt32 p.fenceDrop })

/-! ### Cells and credits (R301 to R304) -/

def sharedSize (w : Switch) : Nat :=
  262144 - 104 * (((List.range 8).map fun v => SMap.get 0 w.gmin v).foldl (· + ·) 0)

/-- Return credits to the sender of an input, and let a frame carry them (R303, R304, R341). -/
def creditBack (i v n : Nat) (s : State) : State :=
  if i < 88 then
    let s := s.modPort i fun p => { p with retCells := SMap.upd 0 p.retCells v (· + n) }
    if s.live i then sendIdle i s else s
  else s

/-- May the packet be charged to the shared pool (R304, R315, R317)? -/
def mayShare (s : State) (i v n : Nat) (c : Colour) : Bool :=
  let w := s.sw
  let left := sharedSize w - w.sharedUsed
  i < 104 && v != 7 && n ≤ left && SMap.get 0 w.inShared i + n ≤ w.inLimit &&
  (match c with
   | .red => false
   | .yellow => w.yellowFloor ≤ left - n
   | .green => true
   | .unpoliced => true)

/-- Store an arrived packet's cells and charge them (R301, R304). Returns the holding's number. -/
def storeCells (i v n refs : Nat) (c : Colour) (s : State) : Nat × State :=
  let sh := mayShare s i v n c
  let id := s.sw.nextHold
  let s := s.modSw fun w =>
    { w with holdings := SMap.set none w.holdings id (some { input := i, vc := v, shared := sh, cells := n, refs := refs }),
             nextHold := id + 1, free := w.free - n,
             sharedUsed := if sh then w.sharedUsed + n else w.sharedUsed,
             inShared := if sh then SMap.upd 0 w.inShared i (· + n) else w.inShared,
             inResv := if sh then w.inResv else SMap.upd 0 w.inResv (8 * i + v) (· + n) }
  (id, if sh then creditBack i v n s else s)

/-- One copy has left or been discarded; with the last, the cells are freed (R301, R304). -/
def freeHold (id : Nat) (s : State) : State :=
  match SMap.get none s.sw.holdings id with
  | none => s
  | some h =>
    if 1 < h.refs then
      s.modSw fun w => { w with holdings := SMap.set none w.holdings id (some { h with refs := h.refs - 1 }) }
    else
      let s := s.modSw fun w =>
        { w with holdings := SMap.set none w.holdings id none, free := w.free + h.cells,
                 sharedUsed := if h.shared then w.sharedUsed - h.cells else w.sharedUsed,
                 inShared := if h.shared then SMap.upd 0 w.inShared h.input (· - h.cells) else w.inShared,
                 inResv := if h.shared then w.inResv else SMap.upd 0 w.inResv (8 * h.input + h.vc) (· - h.cells) }
      if h.shared then s else creditBack h.input h.vc h.cells s

/-- A packet that is not kept: its credits return at once. -/
def passCredits (i : Nat) (p : Packet) (s : State) : State := creditBack i p.hdr.vc.toNat (cellsOf p) s

/-! ### Buckets (R309 to R313), in quarter bytes -/

/-- Growth since the bucket was last brought up to date: a rate of 0.25 GB/s is a quarter byte a nanosecond. -/
def Bucket.fill (now : Nat) (b : Bucket) : Bucket :=
  let dt := now - b.upto
  { b with c := min (b.c + (b.cfg.cr * dt : Nat)) (b.cfg.cb * 1024 : Nat),
           p := min (b.p + (b.cfg.pr * dt : Nat)) (b.cfg.pb * 1024 : Nat), upto := now }

/-- A full burst (R311). -/
def Bucket.full (now : Nat) (b : Bucket) : Bucket :=
  { b with c := (b.cfg.cb * 1024 : Nat), p := (b.cfg.pb * 1024 : Nat), upto := now }

def Bucket.spend (bytes : Nat) (b : Bucket) : Bucket :=
  { b with c := b.c - (4 * bytes : Nat), p := b.p - (4 * bytes : Nat) }

def shaperOf (s : State) (o v : Nat) : Bucket := SMap.get Bucket.reset s.sw.shapers (8 * o + v)

/-- Colour of a packet whose header arrives at an input (R313), and the policer's buckets debited; green where the policer
is inactive. -/
def police (i : Nat) (h : Header) (s : State) : Colour × State :=
  let v := h.vc.toNat
  if v = 0 || v = 7 || 104 ≤ i then (.unpoliced, s)
  else
    let key := 2 * i + (if v ≤ 3 then 0 else 1)
    let b := SMap.get Bucket.reset s.sw.policers key
    let part := h.part.toNat
    if !b.cfg.en then (.green, countPort i 8 1 part s)
    else
      let b := b.fill s.now
      let need : Int := (4 * h.size : Nat)
      let put := fun (b : Bucket) => s.modSw fun w => { w with policers := SMap.set Bucket.reset w.policers key b }
      if b.p < need then (.red, countPort i 10 1 part (put b))
      else if b.c < need then (.yellow, countPort i 9 1 part (put { b with p := b.p - need }))
      else (.green, countPort i 8 1 part (put { b with p := b.p - need, c := b.c - need }))

/-! ### Entering a queue -/

/-- The congestion-map entry of an output (R323). -/
def cmapOf (o : Nat) : Nat := if o < 88 then o / 4 else o - 66

/-- The outputs of a congestion-map entry. -/
def cmapOutputs (e : Nat) : List Nat := if e < 22 then bundlePorts e else [e + 66]

/-- Cells queued for an entry on a range of VCs. -/
def cmapCells (s : State) (e : Nat) (vs : List Nat) : Nat :=
  ((cmapOutputs e).flatMap fun o => vs.map fun v => queueCells s o v).foldl (· + ·) 0

/-- Credits a sender holds for the packet towards an output: of the peer, or of the endpoint's receive buffer of 64
cells per VC (R303, R304, R137). -/
def hasCredit (s : State) (o v n : Nat) : Bool :=
  if o < 88 then n ≤ SMap.get 0 (s.port o).credit v
  else
    let b := s.epb (o - 88)
    SMap.get 0 b.rxCells v + SMap.get 0 b.withheld v + n ≤ 64

/-- Does a packet wait at one of the entry's outputs without credit? -/
def cmapStarved (s : State) (e : Nat) : Bool :=
  (cmapOutputs e).any fun o => (List.range 8).any fun v =>
    match s.sw.queue o v with
    | q :: _ => !hasCredit s o v (cellsOf q.pkt)
    | [] => false

/-- The longest wait of a packet at the head of one of the entry's queues, in units of 20 ns (R323). -/
def cmapHeadWait (s : State) (e : Nat) : Nat :=
  (cmapOutputs e).foldl (fun m o => (List.range 8).foldl (fun m v =>
    match s.sw.queue o v with
    | q :: _ => max m (min 0xFFFF ((s.now - q.queued) / 20))
    | [] => m) m) 0

/-- Bring an entry's accumulation up to now, before its queues or its credits change (R323). -/
def cmapAdvance (e : Nat) (s : State) : State :=
  let a := SMap.get CAcc.reset s.sw.cacc e
  let dt := s.now - max a.upto s.sw.cmapFrom
  if dt = 0 then s
  else
    let a' : CAcc :=
      { a with req := a.req + dt * cmapCells s e [1, 2, 3], rsp := a.rsp + dt * cmapCells s e [4, 5, 6],
               noCredit := if cmapStarved s e then a.noCredit + dt else a.noCredit,
               maxDelay := max a.maxDelay (cmapHeadWait s e), upto := s.now }
    s.modSw fun w => { w with cacc := SMap.set CAcc.reset w.cacc e a' }

/-- A packet enters an output queue: one that was empty long enough starts with a full burst (R311). -/
def joinQueue (o v : Nat) (q : QPkt) (s : State) : State :=
  let old := s.sw.queue o v
  let s := cmapAdvance (cmapOf o) s
  let s := s.modSw (Switch.setQueue o v (old ++ [q]))
  if old.isEmpty && SMap.get 0 s.sw.emptied (8 * o + v) + 1000 * s.sw.idleUs ≤ s.now && (shaperOf s o v).cfg.en then
    s.modSw fun w => { w with shapers := SMap.upd Bucket.reset w.shapers (8 * o + v) (Bucket.full s.now) }
  else s

/-- Put a stored packet into the output queue of its VC. -/
def enqueueAs (transit : Bool) (o : Nat) (p : Packet) (i : Nat) (c : Colour) (hold : Nat) (s : State) : State :=
  let v := p.hdr.vc.toNat
  joinQueue o v { pkt := p, input := i, colour := c, hold := hold, since := s.now, queued := s.now, depth := queueCells s o v,
                  merged := [], doomed := false, transit := transit } s

def enqueue : Nat → Packet → Nat → Colour → Nat → State → State := enqueueAs false

/-- A packet is sent towards a port as a detour (R281, R323). -/
def noteDetour (n part : Nat) (s : State) : State :=
  countPort n 13 1 part
    (s.modSw fun w => { w with cacc := SMap.upd CAcc.reset w.cacc (n / 4) fun a => { a with detours := a.detours + 1 } })

/-- The header of a packet for its next link (R75, R278). -/
def reHop (p : Packet) (j vc : Nat) : Packet :=
  { p with hdr := ({ p.hdr with hop := BitVec.ofNat 2 j, vc := BitVec.ofNat 3 vc } : Header).seal_ }

/-- Send a stored packet towards a fabric port. -/
def toPort (n : Nat) (detour : Bool) (p : Packet) (j i : Nat) (c : Colour) (hold : Nat) (s : State) : State :=
  let s := if detour then noteDetour n p.hdr.part.toNat s else s
  enqueue n (reHop p j (outVc s n p.hdr j)) i c hold s

/-! ### The combiner (R292, R293) -/

/-- Does the operation and operator combine in a switch (R79)? -/
def combinable (h : Header) : Bool :=
  let t := h.attr.toNat % 16
  let o := h.attr.toNat / 16
  attrOk h.op.toNat h.attr.toNat &&
  (h.op.toNat == opWreduce || (h.op.toNat == opReduce && (t ≤ 4 || o == 2 || o == 3)))

def agrees (a b : Header) : Bool :=
  a.op == b.op && a.dnode == b.dnode && a.offset == b.offset && a.len == b.len && a.attr == b.attr && a.part == b.part
  && a.wgen == b.wgen

/-- Combine records in use: waiting in queues, and handed over. -/
def combinesUsed (s : State) : Nat :=
  s.sw.combines.length + ((s.sw.queues.map fun q => (q.2.filter fun x => !x.merged.isEmpty).length).foldl (· + ·) 0)

/-- May this waiting packet take the arrival in (R292)? -/
def mergeable (s : State) (p : Packet) (q : QPkt) : Bool :=
  agrees p.hdr q.pkt.hdr && q.pkt.trailerOk && q.merged.length < 16 && !q.doomed &&
  (!q.merged.isEmpty || combinesUsed s < 1024)

def mergeInto (p : Packet) (q : QPkt) : QPkt :=
  let payload := reduceAll p.hdr.attr.toNat q.pkt.payload p.payload
  { q with pkt := Packet.make q.pkt.hdr payload,
           merged := (if q.merged.isEmpty then [q.pkt.hdr] else q.merged) ++ [p.hdr] }

/-- Is an endpoint attachment down (R277)? -/
def attachLost (s : State) (e : Nat) : Bool := bit s.sw.attachDown e

/-- Deliver to a local endpoint's queue, merging where R292 allows (R21, R292). -/
def toEndpoint (i : Nat) (c : Colour) (p : Packet) (s : State) : State :=
  let e := p.hdr.dnode.toNat % 16
  if attachLost s e then passCredits i p (noteDownDrop s)
  else
  let v := p.hdr.vc.toNat
  let q := s.sw.queue (88 + e) v
  let ownOnly := (SMap.get LensDesc.reset (s.epb e).lens p.hdr.window).ownOnly
  if combinable p.hdr && p.trailerOk && !ownOnly && q.any (mergeable s p) then
    passCredits i p (s.modSw (Switch.setQueue (88 + e) v (modFirst (mergeable s p) (mergeInto p) q)))
  else
    let (id, s) := storeCells i v (cellsOf p) 1 c s
    enqueue (88 + e) p i c id s

/-! ### Originating packets -/

/-- Has the package both a position and a slot (R19)? -/
def State.placed (s : State) : Bool := s.glob.positionValid && s.glob.slotValid

/-- A request of the management function ends at once with a status, which the management processor is handed as an
answer (R19, R21). -/
def mgmtFails (p : Packet) (status : Nat) (s : State) : State :=
  if s.mgmt.up then s.modMgmt fun m => { m with answers := m.answers ++ [respond p.hdr status 0 []] } else s

/-- A packet finds no way out at the package it starts from (R19, R30, R281 step 4). -/
def noWay (i : Nat) (p : Packet) (fenced : Bool) (s : State) : State :=
  if isResp p.hdr then noteNoRoute s
  else if 88 ≤ i && i < 104 then
    if fenced then failAtSource (i - 88) p.hdr.tid.toNat stFenced s
    else failAtSource (i - 88) p.hdr.tid.toNat stTimeout (noteNoRoute s)
  else mgmtFails p stTimeout (noteNoRoute s)

/-- Route a packet by the tables; `j` is the hop index of the link it takes (R281). -/
def routePacket (i j : Nat) (c : Colour) (p : Packet) (s : State) : State :=
  let own := 88 ≤ i
  match routeOf s p.hdr j with
  | .port n d =>
    let (id, s) := storeCells i p.hdr.vc.toNat (cellsOf p) 1 c s
    toPort n d p j i c id s
  | .fenced => passCredits i p (if own then noWay i p true s else noteNoRoute s)
  | .none => passCredits i p (if own then noWay i p false s else noteNoRoute s)

/-- Stamp a packet the package originates with the epoch, hop 0 and its first VC (R77, R78, R279). -/
def originate (p : Packet) (s : State) : Packet :=
  let h := p.hdr
  let mg := h.vc = 0
  { p with hdr := ({ h with ep := BitVec.ofNat 1 s.sw.epoch, hop := 0,
                            vc := if mg then 0 else BitVec.ofNat 3 (hopVc h 0) } : Header).seal_ }

/-- An endpoint hands a packet to its attachment (R77, R278). -/
def inject (e : Nat) (p : Packet) (s : State) : State :=
  let p := originate p s
  (wakeDomain switchDom s).modSw fun w => { w with attachIn := SMap.upd [] w.attachIn e (· ++ [p]) }

/-! ### The management function's side of the switch (R33, R79, R284) -/

/-- Is the node on the manager list (R33)? -/
def onList (s : State) (node : Nat) : Bool := s.glob.mgrs.any fun m => m.2.valid && m.2.node == node

/-- May the management function take one more request: it holds space for that request's response (R284)? -/
def mgmtRoom (s : State) : Bool := s.mgmt.rx.length ≤ Config.mgmtMore

/-- Accept a management packet that waits in the switch, once there is space for its response (R284). -/
def mgmtAccept (s : State) : State :=
  match s.mgmt.held with
  | [] => s
  | (m, id) :: rest =>
    if mgmtRoom s then freeHold id (s.modMgmt fun g => { g with rx := g.rx ++ [m], held := rest }) else s

/-- A management packet of input `i` for this package. What the manager list says of its SNODE is settled as it arrives
(R33). Responses need no space; a request waits in the switch, with its cells, until there is space for its response
(R284). -/
def toMgmt (i : Nat) (p : Packet) (s : State) : State :=
  let m : MgmtPkt := { pkt := p, listed := onList s p.hdr.snode.toNat }
  if isResp p.hdr || (s.mgmt.held.isEmpty && mgmtRoom s) then
    passCredits i p (s.modMgmt fun g => { g with rx := g.rx ++ [m] })
  else
    let (id, s) := storeCells i 0 (cellsOf p) 1 .unpoliced s
    s.modMgmt fun g => { g with held := g.held ++ [(m, id)] }

/-- A packet of the switch's own or of the management function: delivered here, or routed (R284). -/
def switchSend (p : Packet) (s : State) : State :=
  let p := originate p s
  if !s.placed then noWay 104 p false s
  else if p.hdr.dnode.toNat / 16 = s.glob.slot then
    if p.hdr.vc = 0 then toMgmt 104 p s else toEndpoint 104 .unpoliced p s
  else routePacket 104 0 .unpoliced p s

/-- A VC0 packet for this package. An OP that is no management code is undefined there (R79): such a request is answered
MALFORMED, or PERMISSION where its sender is not on the list, and such a response is discarded (assumption 65). -/
def arriveMgmt (i : Nat) (p : Packet) (s : State) : State :=
  let op := p.hdr.op.toNat
  if isMgmtOp op || (0x80 ≤ op && isMgmtOp (op - 0x80)) then toMgmt i p s
  else
    let s := passCredits i p s
    if 0x80 ≤ op then s
    else if onList s p.hdr.snode.toNat then switchSend (respond p.hdr stMalformed 0 []) s
    else
      switchSend (respond p.hdr stPermission 0 [])
        (s.modGlob fun g => { g with mgrReject := cnt32 g.mgrReject })

/-! ### Prism (R289 to R291) -/

def mcastEntry (s : State) (h : Header) : McastEntry :=
  SMap.get McastEntry.reset s.sw.mcast (4096 * h.ep.toNat + h.dnode.toNat)

/-- The port a multicast copy takes on a bundle: live and unfenced, by load or by offset (R290). -/
def copyPort (s : State) (h : Header) (j b : Nat) : Option Nat :=
  let usable := fun n => s.live n && !(s.port n).fenced
  if s.sw.fixed then
    let o := (h.snode.toNat + h.dnode.toNat) % 4
    [4 * b + o, 4 * b + (o + 1) % 4, 4 * b + (o + 2) % 4, 4 * b + (o + 3) % 4].find? usable
  else lightest (fun n => queueCells s n (hopVc h j)) ((bundlePorts b).filter usable)

/-- The member answer, or own answer, of a multicast request. -/
def mcastAck (q : Header) (status cnt : Nat) : Packet :=
  respond q status cnt []

/-- Is a gather record held for this store? -/
def gatherFor (s : State) (snode tid : Nat) : Option GatherRec :=
  s.sw.gathers.find? fun g => g.snode == snode && g.tid == tid

/-- Replicate a usable multicast store that arrived at input `i` (R290). -/
def replicate (i : Nat) (c : Colour) (p : Packet) (e : McastEntry) (s : State) : State :=
  let h := p.hdr
  let root := 88 ≤ i
  let mask := if root then e.root else if rowBundle (i / 4) then e.row else e.col
  let last := !root && h.hop = 2
  let j := if root then 0 else h.hop.toNat + 1
  let bundles := if last then [] else bitsOf 22 mask
  let s := if last && mask != 0 then noteHopLimit s else s
  let outs := bundles.filterMap fun b => copyPort s h j b
  let dropped := bundles.filter fun b => (copyPort s h j b).isNone
  let s := forEach dropped (fun b s => noteFenceDrop (4 * b) s) s
  let lost := (bitsOf 16 e.loc).filter (attachLost s)
  let s := forEach lost (fun _ s => noteDownDrop s) s
  let locals := (bitsOf 16 e.loc).filter fun k => !attachLost s k
  if outs.isEmpty && locals.isEmpty then passCredits i p s
  else
    let (id, s) := storeCells i h.vc.toNat (cellsOf p) (outs.length + locals.length) c s
    let s := forEach outs (fun n s => countPort n 14 1 h.part.toNat (enqueue n (reHop p j (hopVc h j)) i c id s)) s
    forEach locals (fun k s =>
      let h' : Header := { h with dnode := BitVec.ofNat 12 (16 * s.glob.slot + k) }
      enqueue (88 + k) { p with hdr := h'.seal_ } i c id s) s

/-- Serve a multicast store at Prism (R289 to R291). -/
def prismStore (i : Nat) (c : Colour) (p : Packet) (s : State) : State :=
  let e := mcastEntry s p.hdr
  let usable := e.valid && e.part == p.hdr.part.toNat
  if !usable then
    if 88 ≤ i then toEndpoint 104 .unpoliced (originate (mcastAck p.hdr stMalformed 0) s) (noteNoRoute s)
    else passCredits i p (noteNoRoute s)
  else
    let s := if 88 ≤ i then
        s.modSw fun w => { w with gathers := w.gathers ++
          [{ snode := p.hdr.snode.toNat, tid := p.hdr.tid.toNat, req := p.hdr, mcount := e.mcount, answers := 0,
             lowest := none, fails := 0 }] }
      else s
    replicate i c p e s

/-- Must a multicast store wait at its attachment for a gather record (R291)? -/
def gatherBlocked (s : State) (i : Nat) (p : Packet) : Bool :=
  let e := mcastEntry s p.hdr
  88 ≤ i && p.hdr.op.toNat == opMcast && e.valid && e.part == p.hdr.part.toNat && 2048 ≤ s.sw.gathers.length

/-- One answer counted in a gather record (R103, R291). -/
def GatherRec.take (status : Nat) (g : GatherRec) : GatherRec :=
  if status = stOk then { g with answers := g.answers + 1 }
  else { g with answers := g.answers + 1, fails := min 65535 (g.fails + 1),
                lowest := some (match g.lowest with | none => status | some l => min l status) }

/-- The gather unit takes a member's MCAST_ACK at the source package (R103, R291). -/
def gatherAck (i : Nat) (p : Packet) (s : State) : State :=
  let sn := p.hdr.dnode.toNat
  let tid := p.hdr.tid.toNat
  let s := passCredits i p s
  match gatherFor s sn tid with
  | none => s.modEpb (sn % 16) fun b => { b with lateResp := cnt32 b.lateResp }
  | some g =>
    let g := g.take p.hdr.attr.toNat
    let rest := s.sw.gathers.filter fun x => !(x.snode == sn && x.tid == tid)
    if g.answers < g.mcount then s.modSw fun w => { w with gathers := g :: rest }
    else
      let s := s.modSw fun w => { w with gathers := rest }
      toEndpoint 104 .unpoliced (originate (mcastAck g.req (g.lowest.getD stOk) g.fails) s) s

/-! ### The way of one arriving packet (R276) -/

/-- Requests answered MALFORMED by the switch itself; a bad response is only discarded (R86), and so is an OP that is
undefined (assumption 85). -/
def answerMalformed (p : Packet) (s : State) : State :=
  if isRequest p.hdr.op.toNat then switchSend (respond p.hdr stMalformed 0 []) s else s

/-- VC7 traffic of a transit grant (R276 step 3, R295, R296). -/
def transitPacket (i : Nat) (p : Packet) (s : State) : State :=
  let g := s.port i
  let h := p.hdr
  if grantMode s i = .none || g.tpart != h.part.toNat then passCredits i p (noteFenceDrop i s)
  else if grantMode s i = .edge then
    if h.dnode.toNat / 16 = s.glob.slot then
      if h.op.toNat == opMcast + 0x80 then gatherAck i p s else toEndpoint i .unpoliced p s
    else passCredits i p (noteNoRoute s)
  else if h.hop = 2 then passCredits i p (noteHopLimit s)
  else
    let outs := g.tout :: (bundlePorts (g.tout / 4))
    match outs.find? s.live with
    | none => passCredits i p (noteDownDrop s)
    | some n =>
      let (id, s) := storeCells i 7 (cellsOf p) 1 .unpoliced s
      enqueueAs true n (reHop p (h.hop.toNat + 1) 7) i .unpoliced id s

/-- Responses the combiner splits among the sources of a merged packet (R293); they are the switch's own packets, charged to
no input's reserve (assumption 23). -/
def splitMerged (i : Nat) (p : Packet) (s : State) : Option (List Packet × State) :=
  let same := fun (r : CombineRec) =>
    r.endpoint == i - 88 &&
    (match r.sources with
     | h :: _ => h.snode == p.hdr.dnode && h.tid == p.hdr.tid && h.op.toNat + 0x80 == p.hdr.op.toNat
     | [] => false)
  if i < 88 || 104 ≤ i then none
  else
    (takeFirst same s.sw.combines).map fun r =>
      (r.1.sources.map fun h => originate (respond h p.hdr.attr.toNat 0 []) s,
       s.modSw fun w => { w with combines := r.2 })

/-- Steps 7 to 9 of R276 for one packet. -/
def forward (i : Nat) (c : Colour) (p : Packet) (s : State) : State :=
  let h := p.hdr
  if h.dnode.toNat / 16 = s.glob.slot then toEndpoint i c p s
  else if i < 88 && h.hop = 2 then passCredits i p (noteHopLimit s)
  else routePacket i (if i < 88 then h.hop.toNat + 1 else 0) c p s

/-- Steps 3 to 9 of R276 for a packet whose header is sound, and which its input has coloured. -/
def dispatchPacket (i : Nat) (c : Colour) (p : Packet) (s : State) : State :=
  let h := p.hdr
  if i < 88 && h.vc = 7 then transitPacket i p s
  else if i < 88 && (s.port i).fenced && h.vc != 0 then passCredits i p (noteFenceDrop i s)
  else if h.vc = 0 then
    if h.dnode.toNat / 16 = s.glob.slot then arriveMgmt i p s
    else if i < 88 && h.hop = 2 then passCredits i p (noteHopLimit s)
    else routePacket i (if i < 88 then h.hop.toNat + 1 else 0) .unpoliced p s
  else if h.op.toNat == opMcast then prismStore i c p s
  else if h.op.toNat == opMcast + 0x80 && h.dnode.toNat / 16 = s.glob.slot then gatherAck i p s
  else
    match splitMerged i p s with
    | some (ps, s) => forEach ps (forward 104 .unpoliced) (passCredits i p s)
    | none => forward i c p s

/-- Deal with one arriving packet in the order of R276. -/
def switchPacket (i : Nat) (p : Packet) (s : State) : State :=
  let h := p.hdr
  let s := wakeDomain switchDom s
  if !s.placed then passCredits i p (if 88 ≤ i then noWay i p false s else noteNoRoute s)
  else if !h.hcrcOk then passCredits i p (noteHdrErr s)
  else if 257 ≤ h.len.toNat || h.hop = 3 then passCredits i p (answerMalformed p (noteHdrErr s))
  else
    let (c, s) := police i h s
    dispatchPacket i c p s

/-- Has an attachment's packet the credit to enter the switch (R303)? -/
def attachCredit (s : State) (e : Nat) (p : Packet) : Bool :=
  let v := p.hdr.vc.toNat
  SMap.get 0 s.sw.inResv (8 * (88 + e) + v) + cellsOf p ≤ SMap.get 0 s.sw.gmin v

/-- Receive-side counts of a fabric port (R468). -/
def countRx (i : Nat) (p : Packet) (s : State) : State :=
  let v := p.hdr.vc.toNat
  let part := p.hdr.part.toNat
  if v = 7 then s
  else
    let s := countPort i 1 (cellsOf p) part s
    if v = 0 then countPort i 7 1 part s else if v ≤ 3 then countPort i 5 1 part s else countPort i 6 1 part s

/-- The first packet of an attachment that may enter, and the rest: each VC waits for its own credit, in the order its
packets came, and a VC that waits holds back no other (R303, R315). -/
def nextAttached (ok : Packet → Bool) (s : State) (i : Nat) : List Nat → List Packet → Option (Packet × List Packet)
  | _, [] => none
  | waiting, p :: ps =>
    let v := p.hdr.vc.toNat
    if !waiting.contains v && ok p && attachCredit s (i - 88) p && !gatherBlocked s i p && !attachLost s (i - 88) then
      some (p, ps)
    else (nextAttached ok s i (v :: waiting) ps).map fun r => (r.1, p :: r.2)

/-- The next packet of an input reaches the switch, if there is one and it may enter; `ok` says which packets the
command serves (R276, R291, R303). -/
def arriveIf (ok : Packet → Bool) (i : Nat) (s : State) : State :=
  if !s.sw.ready then s
  else if i < 88 then
    match (s.port i).rx with
    | [] => s
    | p :: ps => if ok p then switchPacket i p (countRx i p (s.modPort i fun q => { q with rx := ps })) else s
  else
    match nextAttached ok s i [] (SMap.get [] s.sw.attachIn (i - 88)) with
    | none => s
    | some (p, ps) => switchPacket i p (s.modSw fun w => { w with attachIn := SMap.set [] w.attachIn (i - 88) ps })

end Sys2Proof.Machine
end

