-- ==== Sys2Proof/Machine/CoreWake.lean ====
section
/-! DEFINITION. The sleep and the wake events of a core, and the scope records of the pool (04, R132; 05, R171, R172; 14,
R384, R385). -/
namespace Sys2Proof.Machine

/-- The domain of a core enters DOZE or PARK, and its SPM's periphery is at retention; in PARK its vectors and tiles are
lost, and read as zero (R171, R384, R385). -/
def coreSleep (c k : Nat) (park : Bool) (s : State) : State :=
  let s := setDomain (coreDom c k) (if park then .park else .doze) (countCore c k (if park then 41 else 40) 1 s)
  let s := setDomain (spmDom c k) .doze s
  if park then s.modCore c k fun x => { x with v := [], a := [], w := [] } else s

/-- A waiting core whose matrix operations are complete enters the state of its CMODE (R171). -/
def settleWait (c k : Nat) (s : State) : State :=
  let x := s.core c k
  match x.run with
  | .waiting mode =>
    if mode != 0 && x.matrix.isEmpty && (s.domain (coreDom c k)).awake then coreSleep c k (mode == 2) s else s
  | .halted => s
  | .running => s
  | .held => s
  | .waking => s
  | .stopping _ _ => s

/-- A wake event of a core: it ends a wait, or is recorded in the pending bit (R172). A domain in DOZE or PARK wakes
first (R385). -/
def wakeCore (c k : Nat) (s : State) : State :=
  match (s.core c k).run with
  | .waiting _ =>
    let full := (s.domain (coreDom c k)).awake
    countCore c k 39 1 (s.modCore c k fun x => { x with run := if full then .running else .waking, wake := false })
  | .halted => s.modCore c k fun x => { x with wake := true }
  | .running => s.modCore c k fun x => { x with wake := true }
  | .held => s.modCore c k fun x => { x with wake := true }
  | .waking => s.modCore c k fun x => { x with wake := true }
  | .stopping _ _ => s.modCore c k fun x => { x with wake := true }

/-- The scope-check record of a pool granule after a write by an agent: none, or the release before it (R132). The
table holds 256 granules, and the oldest is replaced. -/
def noteScope (c off len : Nat) (r : Option (Nat × Nat)) (s : State) : State :=
  if len = 0 then s else
  let gs := (List.range ((off + len - 1) / 64 - off / 64 + 1)).map (off / 64 + ·)
  s.modCluster c fun cl =>
    let rest := cl.scopes.filter fun r => !gs.contains r.granule
    match r with
    | none => { cl with scopes := rest }
    | some (agent, scope) =>
      let all := rest ++ gs.map fun g => { granule := g, agent := agent, scope := scope }
      { cl with scopes := all.drop (all.length - 256) }

end Sys2Proof.Machine
end

