-- ==== Sys2Proof/Machine/Keccak.lean ====
section
/-! DEFINITION. SHAKE256, the digest of measured loads, images and reports (R378, R428, R432), as FIPS 202 defines it. -/
namespace Sys2Proof

/-- A 64-bit lane rotated left. -/
def rotl64 (v n : Nat) : Nat := (v * 2 ^ (n % 64) + v / 2 ^ (64 - n % 64)) % 2 ^ 64

/-- The state: 25 lanes, lane (x, y) at 5 y + x. -/
abbrev Lanes := List Nat

def Lanes.at_ (a : Lanes) (x y : Nat) : Nat := a.getD (5 * (y % 5) + x % 5) 0

/-- Parity of a column. -/
def columnXor (a : Lanes) (x : Nat) : Nat := a.at_ x 0 ^^^ a.at_ x 1 ^^^ a.at_ x 2 ^^^ a.at_ x 3 ^^^ a.at_ x 4

/-- Build a state from a function of (x, y). -/
def lanesOf (f : Nat → Nat → Nat) : Lanes := (List.range 25).map fun i => f (i % 5) (i / 5)

def thetaStep (a : Lanes) : Lanes :=
  let c := (List.range 5).map (columnXor a)
  let d := (List.range 5).map fun x => c.getD ((x + 4) % 5) 0 ^^^ rotl64 (c.getD ((x + 1) % 5) 0) 1
  lanesOf fun x y => a.at_ x y ^^^ d.getD x 0

/-- The walk of ρ: from (1, 0), each lane (x, y) is followed by (y, 2x + 3y), and turns by the next triangular number. -/
def rhoWalk : Nat → Nat → Nat → Nat → List (Nat × Nat)
  | 0, _, _, _ => []
  | k + 1, t, x, y => (5 * y + x, t * (t + 1) / 2 % 64) :: rhoWalk k (t + 1) y ((2 * x + 3 * y) % 5)

/-- The rotation of each lane, in the order of the state; lane (0, 0) does not turn. -/
def rhoOffsets : List Nat :=
  let walk := rhoWalk 24 1 1 0
  (List.range 25).map fun i => match walk.find? fun w => w.1 == i with
    | some w => w.2
    | none => 0

/-- ρ and π together: lane (x, y) of the result comes from lane (x + 3y, x). -/
def rhoPi (a : Lanes) : Lanes :=
  lanesOf fun x y => rotl64 (a.at_ (x + 3 * y) x) (rhoOffsets.getD (5 * (x % 5) + (x + 3 * y) % 5) 0)

def chiStep (a : Lanes) : Lanes :=
  lanesOf fun x y => a.at_ x y ^^^ ((2 ^ 64 - 1 - a.at_ (x + 1) y) &&& a.at_ (x + 2) y)

/-- The shift register that gives the constants' bits: x^8 + x^6 + x^5 + x^4 + 1. -/
def constBits : Nat → Nat → List Nat
  | 0, _ => []
  | k + 1, r => r % 2 :: constBits k (if r < 128 then 2 * r else (2 * r) ^^^ 0x171)

/-- The constant of a round: its seven bits of the register stand at 2^j − 1. -/
def roundConst (taken : List Nat) : Nat :=
  (List.range 7).foldl (fun c j => c + taken.getD j 0 * 2 ^ (2 ^ j - 1)) 0

/-- The constants of the 24 rounds, in order. -/
def roundConstants : List Nat :=
  let bits := constBits 168 1
  (List.range 24).map fun r => roundConst ((bits.drop (7 * r)).take 7)

/-- One round with its constant. -/
def keccakRound (a : Lanes) (rc : Nat) : Lanes :=
  let b := chiStep (rhoPi (thetaStep a))
  (b.headD 0 ^^^ rc) :: b.drop 1

def keccakF (a : Lanes) : Lanes := roundConstants.foldl keccakRound a

/-- Lanes of a byte string, 8 bytes each. -/
def lanesFrom : Nat → List Byte → Lanes
  | 0, _ => []
  | k + 1, bs => leAt bs 0 8 :: lanesFrom k (bs.drop 8)

/-- Absorb padded blocks of 136 bytes. -/
def absorb : Nat → Lanes → List Byte → Lanes
  | 0, a, _ => a
  | k + 1, a, bs =>
    let m := lanesFrom 17 bs
    absorb k (keccakF (lanesOf fun x y => a.at_ x y ^^^ m.getD (5 * y + x) 0)) (bs.drop 136)

/-- Pad with 0x1F and a final 0x80 to whole blocks. -/
def shakePad (bs : List Byte) : List Byte :=
  let k := 136 - bs.length % 136
  bs ++ (if k = 1 then [0x9F] else 0x1F :: zeros (k - 2) ++ [0x80])

/-- The 64-byte SHAKE256 digest of a byte string; one block of output holds it. -/
def shake256 (bs : List Byte) : List Byte :=
  let p := shakePad bs
  ((absorb (p.length / 136) (List.replicate 25 0) p).flatMap (leBytes 8)).take 64

end Sys2Proof
end

