-- ==== Sys2Proof/Machine/Tiers.lean ====
section
/-! DEFINITION. Device memory: the tiers behind a device physical address, errors that cannot be corrected, and the
context page table (02, 09). -/
namespace Sys2Proof.Machine

/-! ### Expansion capacity (R249 to R251) -/

def gib : Nat := 2 ^ 30

/-- TIER of an expansion port: as last written, or its value after power-up (R251). -/
def Xp.tierOf (x : Xp) (n : Nat) : Nat := if x.tier = 0 then (if n < 2 then 1 else 2) else x.tier

/-- Capacity a port reports, in whole GiB; none until its device is ready. -/
def Xp.wholeGib (x : Xp) : Nat := if x.devReady then x.reported / gib else 0

/-- The tier's total in GiB (R250). -/
def tierMax (t : Nat) : Nat := if t == 1 then 1536 else 4096

/-- Reported capacity of the tier's ports below `n`. -/
def lowerGib (s : State) (t n : Nat) : Nat :=
  ((List.range n).map fun m => if (s.xp m).tierOf m == t then (s.xp m).wholeGib else 0).foldl (· + ·) 0

/-- Usable capacity of a port in GiB (R250). -/
def usableGib (s : State) (n : Nat) : Nat :=
  let t := (s.xp n).tierOf n
  min (s.xp n).wholeGib (tierMax t - lowerGib s t n)

def xpClipped (s : State) (n : Nat) : Bool := usableGib s n < (s.xp n).wholeGib

/-- Park-store frames of port `n` that hold parked copies. -/
def parkedOn (s : State) (n : Nat) : Nat := (s.sill.parkUsed.filter fun p => p.1 == n).length

/-! ### The physical address map (R39, R249) -/

/-- Where a device physical address lies. -/
inductive Loc where
  | hbm
  | xp (n addr : Nat)
  | unbacked
  deriving DecidableEq, Repr

def tier0Size : Nat := 0xC000000000
def tierBase (t : Nat) : Nat := if t == 1 then 0x10000000000 else 0x40000000000

/-- The direct part of a port of the tier, in GiB. -/
def directGib (s : State) (t n : Nat) : Nat :=
  let x := s.xp n
  if x.en && x.devReady && x.tierOf n == t then x.direct else 0

/-- The port of the tier whose direct part holds offset `off`, from port `n` on (R249). -/
def locateXp (s : State) (t : Nat) : Nat → Nat → Nat → Loc
  | 0, _, _ => .unbacked
  | k + 1, n, off =>
    let d := directGib s t n * gib
    if off < d then .xp n off else locateXp s t k (n + 1) (off - d)

/-- The location of a device physical address (R39, R40, R249). -/
def locate (s : State) (a : Nat) : Loc :=
  if a < tier0Size then .hbm
  else if tierBase 1 ≤ a && a < 0x18000000000 then locateXp s 1 4 0 (a - tierBase 1)
  else if tierBase 2 ≤ a && a < 0x80000000000 then locateXp s 2 4 0 (a - tierBase 2)
  else .unbacked

/-- The tier a physical address belongs to; 0 also for an address outside every tier. -/
def tierOfDpa (a : Nat) : Nat := if tierBase 2 ≤ a then 2 else if tierBase 1 ≤ a then 1 else 0

def backed (s : State) (a : Nat) : Bool := locate s a != .unbacked

/-- Is a whole range inside the installed part of one tier? Installed parts are contiguous from the tier base (R39). -/
def rangeBacked (s : State) (a n : Nat) : Bool :=
  n != 0 && backed s a && backed s (a + n - 1) && tierOfDpa a == tierOfDpa (a + n - 1)

def inTier0 (a n : Nat) : Bool := a + n ≤ tier0Size

/-! ### Granules -/

/-- A range cut at 64-byte granules: (address, length) pieces in ascending address. -/
def piecesGo : Nat → Nat → Nat → List (Nat × Nat)
  | 0, _, _ => []
  | k + 1, a, n =>
    if n = 0 then [] else
    let l := min n (64 - a % 64)
    (a, l) :: piecesGo k (a + l) (n - l)

def pieces (a n : Nat) : List (Nat × Nat) := piecesGo (n / 64 + 2) a n

/-- The HBM stack that holds a tier-0 address (R252). -/
def stackOf (a : Nat) : Nat := a / 2048 % 12

/-- Every controller has trained its stack or failed (R451). -/
def tier0Settled (s : State) : Bool := (List.range 12).all fun n => (s.hbm n).ready || (s.hbm n).fail

/-- Does reading the granule that holds tier-0 address `a` meet an error that cannot be corrected (R253, R452)? -/
def granuleBad (s : State) (a : Nat) : Bool := (s.hbm (stackOf a)).fail || s.ue.contains (a / 64)

/-- Does an access to this piece complete UNCORRECTED (R253, R259, R260, R452)? -/
def pieceBad (s : State) (write : Bool) (p : Nat × Nat) : Bool :=
  match locate s p.1 with
  | .hbm => if write && p.2 == 64 then (s.hbm (stackOf p.1)).fail else granuleBad s p.1
  | .xp n b => !(s.xp n).linkUp || (!write && (s.xp n).poison.contains (b / 64))
  | .unbacked => true

/-- What an uncorrectable granule leaves behind: HBM_n.ERR, the UE counter and a MEM_UE record, which says whether a
scrub found it and whether Sillage reloaded its page (R253, R255, R375). -/
def ueNoteAs (flags a : Nat) (s : State) : State :=
  let n := stackOf a
  let s := countHbm n 7 1 (s.modHbm n fun h => { h with ueCount := cnt16 h.ueCount, lastUe := a / 64 })
  faultRecord s.mainPort (mkRecord s 0x06 0 3 0 n [] (leBytes 6 (a / 64 * 64) ++ leBytes 1 flags)) s

/-- A foreground access met the granule. -/
def ueNote (a : Nat) : State → State := ueNoteAs 0 a

/-- Note every uncorrectable tier-0 granule a refused access met. -/
def ueNotes (write : Bool) (ps : List (Nat × Nat)) (s : State) : State :=
  forEach (ps.filter fun p => locate s p.1 = .hbm && pieceBad s write p) (fun p s => ueNote p.1 s) s

/-! ### Reading and writing device memory -/

def locRead (s : State) (a n : Nat) : List Byte :=
  match locate s a with
  | .hbm => s.dev.readN a n
  | .xp k b => (s.xp k).mem.readN b n
  | .unbacked => zeros n

def locWrite (a : Nat) (bs : List Byte) (s : State) : State :=
  match locate s a with
  | .hbm =>
    { s with dev := s.dev.writeN a bs,
             ue := if bs.length = 64 then s.ue.filter (· != a / 64) else s.ue,
             ce := if bs.length = 64 then s.ce.filter (· != a / 64) else s.ce }
  | .xp k b => s.modXp k fun x =>
    { x with mem := x.mem.writeN b bs, poison := if bs.length = 64 then x.poison.filter (· != b / 64) else x.poison }
  | .unbacked => s

/-- The bytes of a range, whatever errors it holds. -/
def devRead (s : State) (a n : Nat) : List Byte := (pieces a n).flatMap fun p => locRead s p.1 p.2

/-- Write a byte string piece by piece. -/
def devWriteGo : List (Nat × Nat) → List Byte → State → State
  | [], _, s => s
  | p :: ps, bs, s => devWriteGo ps (bs.drop p.2) (locWrite p.1 (bs.take p.2) s)

def devWrite (a : Nat) (bs : List Byte) (s : State) : State := devWriteGo (pieces a bs.length) bs s

/-- Does a read, or a write, of the range complete UNCORRECTED? -/
def devBad (s : State) (write : Bool) (a n : Nat) : Bool := (pieces a n).any (pieceBad s write)

/-- A foreground read: its correctable errors are corrected in the data, written back and counted (R253). -/
def correctRead (a n : Nat) (s : State) : State :=
  if s.ce.isEmpty then s
  else
    forEach (pieces a n) (fun p s =>
      if locate s p.1 = .hbm && s.ce.contains (p.1 / 64) then
        countHbm (stackOf p.1) 6 1 { s with ce := s.ce.filter (· != p.1 / 64) }
      else s) s

/-- An access to device memory wakes the stacks it reaches (R385, R404). -/
def wakeStacks (a n : Nat) (s : State) : State :=
  if (List.range 12).all fun k => (s.domain (hbmDom k)).awake then s
  else forEach (pieces a n) (fun p s => if locate s p.1 = .hbm then wakeDomain (hbmDom (stackOf p.1)) s else s) s

/-- Write the range if the controller can, and note the granules it cannot write (R253). -/
def devPut (a : Nat) (bs : List Byte) (s : State) : State :=
  let s := wakeStacks a bs.length s
  if devBad s true a bs.length then ueNotes true (pieces a bs.length) s else devWrite a bs s

/-- An access of a range of device memory: the tier-0 stacks it reaches wake, and its granules count in counter `i` of their
controllers (R385, R468). -/
def countGranules (i a n : Nat) (s : State) : State :=
  let s := wakeStacks a n s
  if s.boot.counters then
    forEach (pieces a n) (fun p s => if locate s p.1 = .hbm then countHbm (stackOf p.1) i 1 s else s) s
  else s

/-! ### The context page table (R261) -/

def cptSize (s : State) : Nat := 2 ^ s.sill.cptLog2
def cptAddr (s : State) (c : Nat) : Nat := s.sill.cptBase * 2 ^ 21 + 32 * c

/-- Does the entry lie in a granule that cannot be read (R253)? -/
def cptBad (s : State) (c : Nat) : Bool := devBad s false (cptAddr s c) 32

/-- PGROUP of a page in no parity group. -/
def noGroup : Nat := 0xFFFFF

/-- A CPT entry as a 256-bit number; one that cannot be read names no copy and no group (R406). -/
def cptRaw (s : State) (c : Nat) : Nat := if cptBad s c then fld 192 noGroup else leVal (devRead s (cptAddr s c) 32)

/-- A field [hi:lo] of a CPT entry. -/
def cptFld (s : State) (c hi lo : Nat) : Nat := bits (cptRaw s c) hi lo

/-- Write a field of a CPT entry; an entry that cannot be read is left as it stands (R253). -/
def setCpt (c hi lo v : Nat) (s : State) : State :=
  let r := cptRaw s c
  let w := 2 ^ (hi + 1 - lo)
  devPut (cptAddr s c) (leBytes 32 (r - bits r hi lo * 2 ^ lo + v % w * 2 ^ lo)) s

def pgFree : Nat := 0
def pgResident : Nat := 1
def pgParked : Nat := 2
def pgIn : Nat := 3
def pgOut : Nat := 4
def pgLost : Nat := 5

/-- The frame's page, if the frame is a used pool frame. -/
def frameAt (s : State) (f : Nat) : Option Frame0 := SMap.get none s.sill.frames f

/-- The pool frames a range of device addresses touches. -/
def framesOf (a n : Nat) : List Nat :=
  if n = 0 then [] else (List.range ((a + n - 1) / 2 ^ 21 - a / 2 ^ 21 + 1)).map (a / 2 ^ 21 + ·)

/-- An access through a translation of resident pages: the referenced bits, and on a write the dirty bits and the
moves that must see it (R261, R267, R268). -/
def touchFrame (write : Bool) (f : Nat) (s : State) : State :=
  match frameAt s f with
  | none => s
  | some fr =>
    let s := s.modSill fun l => { l with frames := SMap.set none l.frames f (some { fr with ref := true }) }
    if write then
      let s := setCpt fr.cpn 4 4 1 s
      s.modSill fun l => { l with moves := l.moves.map fun m => if m.cpn == fr.cpn then { m with dirtied := true } else m }
    else s

def touch (write : Bool) (a n : Nat) (s : State) : State :=
  if a < tier0Size then forEach (framesOf a n) (touchFrame write) s else s

/-! ### Target segments: a pool of a cluster, or device memory -/

/-- 8-byte words of a byte range. -/
def wordsOf (a n : Nat) : List Nat := if n = 0 then [] else (List.range ((a + n - 1) / 8 - a / 8 + 1)).map (a / 8 + ·)

/-- Words a write leaves with their error: those it covers only in part (R148). -/
def stillBad (bad : List Nat) (a n : Nat) : List Nat := bad.filter fun w => !(a ≤ 8 * w && 8 * w + 8 ≤ a + n)

/-- A core's scratchpad after a write: whole words lose their errors. -/
def Core.spmPut (a : Nat) (bs : List Byte) (x : Core) : Core :=
  { x with spm := x.spm.writeN a bs, spmBad := stillBad x.spmBad a bs.length, spmCe := stillBad x.spmCe a bs.length }

/-- A cluster's pool after a write. -/
def Cluster.poolPut (a : Nat) (bs : List Byte) (cl : Cluster) : Cluster :=
  { cl with pool := cl.pool.writeN a bs, poolBad := stillBad cl.poolBad a bs.length, poolCe := stillBad cl.poolCe a bs.length }

/-- Words of a list that lie in a range; a read corrects them and writes them back (R148). -/
def wordsIn (ws : List Nat) (a n : Nat) : List Nat := ws.filter (wordsOf a n).contains
def Core.mend (a n : Nat) (x : Core) : Core := { x with spmCe := x.spmCe.filter fun w => !(wordsOf a n).contains w }
def Cluster.mend (a n : Nat) (cl : Cluster) : Cluster :=
  { cl with poolCe := cl.poolCe.filter fun w => !(wordsOf a n).contains w }

/-- Does the pool granule of a piece hold an error that cannot be corrected, in a word a write of the piece would keep (R88,
R98, R121)? -/
def poolPieceBad (s : State) (e : Nat) (write : Bool) (p : Nat × Nat) : Bool :=
  !(write && p.2 == 64) && (s.cluster e).poolBad.any fun w => w / 8 == p.1 / 64

/-- Does an access to the segment complete UNCORRECTED? Every space has granules of 64 bytes (04). -/
def segBad (s : State) (e : Nat) (write : Bool) (g : Seg) : Bool :=
  if g.pool then (pieces g.addr g.len).any (poolPieceBad s e write)
  else devBad s write g.addr g.len

def segRead (s : State) (e : Nat) (g : Seg) : List Byte :=
  if g.pool then (s.cluster e).pool.readN g.addr g.len else devRead s g.addr g.len

/-- Write a segment of the endpoint's target space. -/
def segWrite (e : Nat) (g : Seg) (bs : List Byte) (s : State) : State :=
  if g.pool then
    (wakeDomain (poolDom e) s).modCluster e (Cluster.poolPut g.addr bs)
  else touch true g.addr g.len (devWrite g.addr bs s)

def segsLen (gs : List Seg) : Nat := (gs.map (·.len)).foldl (· + ·) 0
def segsBad (s : State) (e : Nat) (write : Bool) (gs : List Seg) : Bool := gs.any (segBad s e write)
def segsRead (s : State) (e : Nat) (gs : List Seg) : List Byte := gs.flatMap (segRead s e)

def segsWrite (e : Nat) : List Seg → List Byte → State → State
  | [], _, s => s
  | g :: gs, bs, s => segsWrite e gs (bs.drop g.len) (segWrite e g (bs.take g.len) s)

/-- The notes an access that failed UNCORRECTED leaves. -/
def segsNote (write : Bool) (gs : List Seg) (s : State) : State :=
  forEach gs (fun g s => if g.pool then s else ueNotes write (pieces g.addr g.len) s) s

/-- Reads through a translation set the referenced bits. -/
def segsTouch (gs : List Seg) (s : State) : State :=
  forEach gs (fun g s => if g.pool then s else touch false g.addr g.len s) s

end Sys2Proof.Machine
end

