-- ==== Sys2Proof/Machine/SillOps.lean ====
section
/-! DEFINITION. Sillage, the context pager: leaves, pool frames, park stores, page states and its moves (09, R261 to
R273). -/
namespace Sys2Proof.Machine

def pageBytes : Nat := 2 ^ 21

/-! ### Leaves (R262) -/

/-- A leaf with its page in a tier-0 frame: V and SILL set, and the host's RD, WR and LEAF kept. -/
def residentLeaf (frame old : Nat) : Nat := 3 + bits old 11 2 * 4 + fld 21 frame + fld 43 (bits old 63 43)

/-- A leaf whose page is elsewhere: V clear, SILL set, the CPN in [42:21]. -/
def awayLeaf (cpn old : Nat) : Nat := 2 + bits old 11 2 * 4 + fld 21 cpn + fld 43 (bits old 63 43)

/-- A detached leaf: V and SILL clear. -/
def clearedLeaf (old : Nat) : Nat := old / 4 * 4

/-- The leaves a CPT entry names: LEAF, and LEAF2 where it is valid; none where the entry cannot be read. -/
def leafAddrs (s : State) (c : Nat) : List Nat :=
  if cptBad s c then [] else 8 * cptFld s c 127 88 :: (if cptFld s c 87 87 = 1 then [8 * cptFld s c 255 216] else [])

/-- Write both leaves as one; an entry in a granule that cannot be read stays as it is (R253). -/
def writeLeaves (c : Nat) (f : Nat → Nat) (s : State) : State :=
  forEach (leafAddrs s c) (fun a s => devPut a (leBytes 8 (f (leVal (devRead s a 8)))) s) s

/-! ### Frames of the pool (R266, R267) -/

def frameAddr (f : Nat) : Nat := pageBytes * f

def setFrame (f : Nat) (v : Option Frame0) (s : State) : State :=
  s.modSill fun l => { l with frames := SMap.set none l.frames f v }

def poolSize (s : State) : Nat := s.sill.last + 1 - s.sill.first

/-- Free pool frames; none are counted while Sillage is off. -/
def freeFrames (s : State) : Nat := if s.sill.en then poolSize s - s.sill.frames.length else 0

/-- The lowest free pool frame. -/
def freeFrame (s : State) : Option Nat :=
  ((List.range (poolSize s)).map (s.sill.first + ·)).find? fun f => (frameAt s f).isNone

/-- The frame a page holds. -/
def frameOfPage (s : State) (c : Nat) : Option Nat :=
  (s.sill.frames.find? fun e => match e.2 with | some fr => fr.cpn == c | none => false).map (·.1)

/-- Fill a frame with zero. -/
def zeroFrame (f : Nat) (s : State) : State :=
  { s with dev := s.dev.clear (frameAddr f) pageBytes,
           ue := s.ue.filter fun g => !(frameAddr f ≤ 64 * g && 64 * g < frameAddr (f + 1)),
           ce := s.ce.filter fun g => !(frameAddr f ≤ 64 * g && 64 * g < frameAddr (f + 1)) }

/-- Does the translation go to the frame? -/
def Trans.toFrame (f : Nat) (t : Trans) : Bool := t.count == 1 && bits t.entry 42 21 == f

/-- Does the segment lie in the frame? -/
def Seg.inFrame (f : Nat) (g : Seg) : Bool := !g.pool && !disjoint g.addr g.len (frameAddr f) pageBytes

/-- Is the frame still used through an old translation: by a running command, or by a request an endpoint has accepted
and not yet applied (R266, in the manner of R49)? -/
def frameInUse (s : State) (f : Nat) : Bool :=
  (s.clusters.any fun cl => cl.2.tes.any fun te => te.2.queue.any fun q =>
    q.phase == .running && q.trans.any (Trans.toFrame f)) ||
  (s.epbs.any fun b => b.2.collide.any (fun x => x.segs.any (Seg.inFrame f)) ||
    b.2.streams.any fun r => match r.held with | some x => x.segs.any (Seg.inFrame f) | none => false)

/-- Every translation cache drops the frame, and so does a command, or a PROGRAM_LOAD, that has not begun to move bytes. -/
def dropFrame (f : Nat) (s : State) : State :=
  let cmd := fun (q : TeCmd) =>
    if q.phase == .running then q else { q with trans := q.trans.filter fun t => !t.toFrame f }
  let te := fun (te : Te) => { te with queue := te.queue.map cmd }
  let cluster := fun (cl : Cluster) =>
    { cl with tlb := cl.tlb.filter fun t => !t.toFrame f, tes := mapAll Te.reset te cl.tes }
  let load := fun (k : CtlCmd) => { k with trans := k.trans.filter fun t => !t.toFrame f }
  { s with
    hosts := mapAll HostPort.reset (fun h => { h with ctl := h.ctl.map load }) s.hosts,
    clusters := mapAll Cluster.reset cluster s.clusters,
    epbs := mapAll Epb.reset (fun b => { b with cache := b.cache.filter fun x => bits x.entry 42 21 != f }) s.epbs }

/-! ### Park stores (R248, R250, R270) -/

/-- Frames of a port's park store; none while the port is not enabled. -/
def parkCap (s : State) (n : Nat) : Nat :=
  let x := s.xp n
  if x.en && x.devReady then (usableGib s n - x.direct) * 512 else 0

def parkAddr (s : State) (n f : Nat) : Nat := (s.xp n).direct * gib + pageBytes * f

def parkRead (s : State) (n f : Nat) : List Byte := (s.xp n).mem.readN (parkAddr s n f) pageBytes
def parkWrite (n f : Nat) (bs : List Byte) (s : State) : State :=
  let a := parkAddr s n f
  s.modXp n fun x =>
    { x with mem := x.mem.writeN a bs, poison := x.poison.filter fun g => !(a ≤ 64 * g && 64 * g < a + pageBytes) }

/-- Does the read of a parked copy fail: its link is down, or the device answers with poison, an error or nothing (R259,
R260)? -/
def parkBad (s : State) (n f : Nat) : Bool :=
  !(s.xp n).linkUp || (s.xp n).poison.any fun g => parkAddr s n f ≤ 64 * g && 64 * g < parkAddr s n f + pageBytes

def parkFree (s : State) (n f : Nat) : Bool := f < parkCap s n && !s.sill.parkUsed.contains (n, f)

/-- Free, and not the target of a queued move, for which it is kept (R270). -/
def parkOpen (s : State) (n f : Nat) : Bool :=
  parkFree s n f && !s.sill.moves.any fun m => !m.inFlight && m.dst == some (n, f)

def parkTake (d : Nat × Nat) (s : State) : State := s.modSill fun l => { l with parkUsed := l.parkUsed ++ [d] }
def parkDrop (d : Nat × Nat) (s : State) : State :=
  s.modSill fun l => { l with parkUsed := l.parkUsed.filter (· != d) }

def tierPorts (s : State) (t : Nat) : List Nat := filterBelow 4 fun n => (s.xp n).tierOf n == t

/-- Free park-store frames of a tier. -/
def freePark (s : State) (t : Nat) : Nat :=
  ((tierPorts s t).map fun n => parkCap s n - parkedOn s n).foldl (· + ·) 0

/-- The 1 GiB extents of the tier-2 park stores, as (port, first frame), in the order of the wear table (R270). -/
def extents (s : State) : List (Nat × Nat) :=
  (tierPorts s 2).flatMap fun n => (List.range (parkCap s n / 512)).map fun k => (n, 512 * k)

def wearAddr (s : State) (i : Nat) : Nat := s.sill.wearBase * pageBytes + 8 * i
def wearCount (s : State) (i : Nat) : Nat := leVal (devRead s (wearAddr s i) 8)

/-- Count one write in the extent that holds a tier-2 park frame; the count saturates at 2^48 − 1 (R270). -/
def wearNote (d : Nat × Nat) (s : State) : State :=
  match (extents s).findIdx? fun e => e.1 == d.1 && e.2 == d.2 / 512 * 512 with
  | none => s
  | some i => devPut (wearAddr s i) (leBytes 8 (satInc (2 ^ 48 - 1) (wearCount s i))) s

/-- The lowest free frame of an extent. -/
def extentFrame (s : State) (e : Nat × Nat) : Option (Nat × Nat) :=
  (((List.range 512).map (e.2 + ·)).find? fun f => parkOpen s e.1 f).map fun f => (e.1, f)

/-- Extents by number, with their counts. -/
def extentList (s : State) : List (Nat × (Nat × Nat)) :=
  (List.range (extents s).length).filterMap fun i => ((extents s)[i]?).map fun e => (wearCount s i, e)

/-- The element with the least key, the first of them on a tie. -/
def leastBy {α : Type} (key : α → Nat) : List α → Option α
  | [] => none
  | a :: l => match leastBy key l with
    | none => some a
    | some b => if key b < key a then some b else some a

/-- A free frame for a new copy in a tier: in tier 1 the lowest of the lowest port (assumption 34), in tier 2 in the
least-written extent that has one (R270). -/
def chooseFrame (s : State) (t : Nat) : Option (Nat × Nat) :=
  if t = 1 then
    (tierPorts s 1).findSome? fun n => ((List.range (parkCap s n)).find? (parkOpen s n)).map fun f => (n, f)
  else
    (leastBy (·.1) ((extentList s).filter fun e => (extentFrame s e.2).isSome)).bind fun e => extentFrame s e.2

/-- A free frame for a new copy: in the tier named, or in tier 1 and failing that tier 2 (assumption 34). -/
def chooseDst (s : State) (t : Nat) : Option (Nat × Nat) :=
  if t = 0 then (chooseFrame s 1 <|> chooseFrame s 2) else chooseFrame s t

/-! ### Page states (R261, R263) -/

def moveOf (s : State) (c : Nat) : Option Move := s.sill.moves.find? fun m => m.cpn == c
def flightOf (s : State) (c : Nat) : Option Move := s.sill.moves.find? fun m => m.cpn == c && m.inFlight

/-- Where the committed copy of a page lies. -/
def copyAt (s : State) (c : Nat) : Nat × Nat := (cptFld s c 65 64, cptFld s c 86 66)

/-- The state of a page: an entry restored in a state Sillage is not in, or parked outside an enabled store, is LOST (R263),
and so is one whose entry cannot be read (assumption 79). -/
def pageState (s : State) (c : Nat) : Nat :=
  if cptBad s c then pgLost else
  let raw := cptFld s c 2 0
  if raw = pgFree then pgFree
  else if raw = pgParked then
    (if s.sill.parkUsed.contains (copyAt s c) && (copyAt s c).2 < parkCap s (copyAt s c).1 then pgParked else pgLost)
  else if (raw = pgResident || raw = pgIn || raw = pgOut) && (frameOfPage s c).isSome then raw
  else pgLost

def setState (c st : Nat) (s : State) : State := setCpt c 2 0 st s

/-- Write LOST where a page is first found lost; an entry that cannot be read is noted (R253, R263). -/
def noteLost (c : Nat) (s : State) : State :=
  if cptBad s c then ueNotes false (pieces (cptAddr s c) 32) s
  else if pageState s c = pgLost && cptFld s c 2 0 != pgLost then setState c pgLost s else s

/-! ### Parity groups (R268, R269) -/

def groupAddr (s : State) (g : Nat) : Nat := s.sill.pgtBase * pageBytes + 256 * g
def groupBytes (s : State) (g : Nat) : List Byte := devRead s (groupAddr s g) 256
def groupOf (s : State) (c : Nat) : Nat := cptFld s c 211 192
def slotOf (s : State) (c : Nat) : Nat := cptFld s c 215 212

/-- Does the page belong to a valid group of the table? -/
def inGroup (s : State) (c : Nat) : Bool :=
  let g := groupOf s c
  g != noGroup && s.sill.pgtLog2 != 0 && g < 2 ^ s.sill.pgtLog2 && bit (leAt (groupBytes s g) 0 1) 4

/-- Members of a group other than one slot, as (address, WGEN). -/
def otherMembers (s : State) (g slot : Nat) : List (Nat × Nat) :=
  let b := groupBytes s g
  ((List.range (leAt b 0 1 % 16)).filter (· != slot)).map fun i => (leAt b (16 * (i + 1)) 8, leAt b (16 * (i + 1) + 8) 1)

/-- The 64 bytes of a remote command of Sillage's own. -/
def sillEntry (op src dst attr wgen : Nat) : List Byte :=
  leBytes 8 op ++ leBytes 8 src ++ leBytes 8 dst
  ++ leBytes 8 (pageBytes + (if op == ocGet then fld 40 4 else fld 44 4) + fld 48 attr + fld 56 wgen) ++ zeros 32

/-- Hand a command to the Sillage TE (R264). -/
def sillIssue (move : Nat) (entry data : List Byte) (s : State) : State :=
  (wakeDomain (endpointDom s.sill.cluster) s).modTe s.sill.cluster s.sill.te fun te =>
    { te with nextId := te.nextId + 1,
              queue := te.queue ++ [freshCmd te.nextId (.sill move) entry 0 .queued data] }

def xorBytes (a b : List Byte) : List Byte := List.zipWith (fun x y => x ^^^ y) a b

/-- Send a page's difference to its group's parity page (R268). -/
def sendParity (move g : Nat) (d : List Byte) (s : State) : State :=
  let b := groupBytes s g
  sillIssue move (sillEntry ocRput 0 (leAt b 8 8) 0x64 (leAt b 1 1)) d s

/-- Load the parity page and every other member into the frame of a rebuild (R269). -/
def sendLoads (move g slot : Nat) (s : State) : State :=
  let b := groupBytes s g
  forEach ((leAt b 8 8, leAt b 1 1) :: otherMembers s g slot)
    (fun m s => sillIssue move (sillEntry ocGet m.1 0 0 m.2) [] s) s

/-! ### Moves -/

def modMove (id : Nat) (f : Move → Move) (s : State) : State :=
  s.modSill fun l => { l with moves := l.moves.map fun m => if m.id == id then f m else m }

def dropMove (id : Nat) (s : State) : State :=
  s.modSill fun l => { l with moves := l.moves.filter fun m => m.id != id }

/-- Queue a move. -/
def queueMove (kind : MoveKind) (cls c : Nat) (dst : Option (Nat × Nat)) (ws : List Waiter) (s : State) : State :=
  s.modSill fun l =>
    { l with nextMove := l.nextMove + 1,
             moves := l.moves ++ [{
               id := l.nextMove, cpn := c, kind := kind, cls := cls, inFlight := false, frame := 0, dst := dst, crc := 0,
               left := 0, stat := 0, writing := false, dirtied := false, waiters := ws }] }

def addWaiter (id : Nat) (w : Waiter) : State → State := modMove id fun m => { m with waiters := m.waiters ++ [w] }

/-- The first status that is not OK. -/
def firstFail (acc st : Nat) : Nat := if acc = 0 then st else acc

/-- A page of a command that waited for its own move is done. -/
def notifyWaiter (st : Nat) (w : Waiter) (s : State) : State :=
  match w with
  | .te c t id true =>
    s.modTe c t (Te.modCmd id fun q => { q with cur := q.cur + 1, acc := firstFail q.acc st })
  | .ctl x r i true =>
    s.modHost x fun h => { h with ctl := h.ctl.map fun k =>
      if k.ring == r && k.index == i then
        match k.phase with
        | .running n a => { k with phase := .running (n + 1) (firstFail a st) }
        | .queued => k
      else k }
  | .te _ _ _ false => s
  | .ctl _ _ _ false => s

/-- A move ends with a status. -/
def endMove (m : Move) (st : Nat) (s : State) : State := forEach m.waiters (notifyWaiter st) (dropMove m.id s)

/-- A page becomes valid in its frame again. -/
def revive (c f : Nat) (s : State) : State := setState c pgResident (writeLeaves c (residentLeaf f) s)

/-- Cancel an eviction that has not begun to write: the leaves become valid again (R266). -/
def cancelEviction (c : Nat) (s : State) : State :=
  match moveOf s c with
  | some m =>
    match m.kind with
    | .evict _ =>
      if m.writing then s
      else match frameOfPage s c with
        | some f => dropMove m.id (revive c f s)
        | none => dropMove m.id s
    | .pageIn _ => s
    | .commit _ => s
    | .parked _ => s
    | .rebuild => s
    | .detach => s
  | none => s

/-- A page without a move that is unpinned and resident, as a victim: (age, CPN) decide (R266). -/
def victims (s : State) : List (Nat × Frame0) :=
  s.sill.frames.filterMap fun e => match e.2 with
    | some fr =>
      if pageState s fr.cpn = pgResident && cptFld s fr.cpn 3 3 = 0 && (moveOf s fr.cpn).isNone then some (e.1, fr) else none
    | none => none

def victim (s : State) : Option (Nat × Frame0) := leastBy (fun v => v.2.age * 2 ^ 22 + v.2.cpn) (victims s)

/-- Begin an eviction: the leaves go invalid and every translation cache is drained (R266). -/
def beginEviction (tier cls f c : Nat) (ws : List Waiter) (s : State) : State :=
  let s := setState c pgOut (writeLeaves c (awayLeaf c) s)
  queueMove (.evict tier) cls c none ws (dropFrame f s)

def Move.isEvict (m : Move) : Bool := match m.kind with
  | .evict _ => true
  | .pageIn _ => false
  | .commit _ => false
  | .parked _ => false
  | .rebuild => false
  | .detach => false

def Move.isPageIn (m : Move) : Bool := match m.kind with
  | .pageIn _ => true
  | .evict _ => false
  | .commit _ => false
  | .parked _ => false
  | .rebuild => false
  | .detach => false

def evictions (s : State) : List Move := s.sill.moves.filter Move.isEvict

/-- See that a frame is on its way for a page-in of a class: an eviction it needs takes that class (R265, R271). -/
def wantFrame (cls : Nat) (s : State) : State :=
  match evictions s with
  | m :: _ => modMove m.id (fun m => { m with cls := min m.cls cls }) s
  | [] => match victim s with
    | some v => beginEviction 0 cls v.1 v.2.cpn [] s
    | none => s

/-! ### Asking for a page (R265) -/

/-- An access meets a page that is not resident: a demand page-in, the end of an eviction, or nothing new (R265). -/
def demandPage (c : Nat) (s : State) : State :=
  let s := noteLost c (wakeStacks (cptAddr s c) 32 s)
  let st := pageState s c
  if st = pgOut then cancelEviction c s
  else if st = pgParked then
    match s.sill.moves.find? fun m => m.cpn == c && m.isPageIn with
    | some m => modMove m.id (fun m => { m with cls := 0, kind := if m.inFlight then m.kind else .pageIn false }) s
    | none => queueMove (.pageIn false) 0 c none [] s
  else s

/-- What an access through a leaf that names a page away from its frame gets: none to wait, else a status (R263). -/
def pageVerdict (s : State) (c : Nat) : Option Nat :=
  if !s.sill.en || cptSize s ≤ c then some stBounds
  else
    let st := pageState s c
    if st = pgFree then some stBounds else if st = pgLost then some stUncorrected else none

/-! ### Recording a copy -/

/-- A new committed copy takes the place of the old one (R268). -/
def recordCopy (c : Nat) (d : Nat × Nat) (crc : Nat) (dirty : Bool) (s : State) : State :=
  let s := if cptFld s c 5 5 = 1 then parkDrop (copyAt s c) s else s
  let s := setCpt c 191 128 crc (setCpt c 86 64 (d.1 + 4 * d.2) s)
  let s := setCpt c 7 4 (b2n dirty + 2 + 4 * (s.xp d.1).tierOf d.1) s
  setCpt c 18 18 (b2n (inGroup s c)) s

/-- What a commit or a dirty eviction writes as it starts: the copy, and D to the parity page (R266, R268). -/
def startCopy (m : Move) (full : Bool) (f : Nat) (d : Nat × Nat) (s : State) : State :=
  let s := countGranules 14 (frameAddr f) pageBytes (correctRead (frameAddr f) pageBytes s)
  let data := devRead s (frameAddr f) pageBytes
  let old := if cptFld s m.cpn 18 18 = 1 && !full then parkRead s (copyAt s m.cpn).1 (copyAt s m.cpn).2 else zeros pageBytes
  let s := parkWrite d.1 d.2 data (parkTake d s)
  let s := if (s.xp d.1).tierOf d.1 = 2 then wearNote d s else s
  let grp := inGroup s m.cpn
  let s := modMove m.id (fun m => { m with inFlight := true, writing := true, frame := f, dst := some d, crc := crc64 data,
                                           dirtied := false, left := b2n grp, stat := 0 }) s
  if grp then sendParity m.id (groupOf s m.cpn) (xorBytes data old) s else s

def sillRecord (type status : Nat) (body : List Byte) (s : State) : State :=
  faultRecord s.mainPort (mkRecord s type status 5 0 0 [] body) s

/-- SILL_LOST (R265). -/
def lostRecord (c : Nat) : State → State := sillRecord 0x07 0 (leBytes 4 c)

/-- PARITY_DAMAGED (R268). -/
def parityDamaged (c st : Nat) (s : State) : State := sillRecord 0x08 st (leBytes 4 (groupOf s c)) s

/-- Free a pool frame; a run of evictions ends once HIGH is reached (R266). -/
def releaseFrame (f : Nat) (s : State) : State :=
  let s := setFrame f none s
  if s.sill.high ≤ freeFrames s then s.modSill fun l => { l with evicting := false } else s

/-! ### Starting a move (R271) -/

/-- The ports a move uses. -/
def movePorts (s : State) (m : Move) : List Nat :=
  let src := (copyAt s m.cpn).1
  let dst := match m.dst with | some d => [d.1] | none => []
  match m.kind with
  | .pageIn _ => [src]
  | .parked _ => src :: dst
  | .detach => [src]
  | .commit _ => if cptFld s m.cpn 18 18 = 1 then src :: dst else dst
  | .evict _ => if cptFld s m.cpn 18 18 = 1 then src :: dst else dst
  | .rebuild => dst

def portMoves (s : State) (n : Nat) : Nat :=
  (s.sill.moves.filter fun m => m.inFlight && (movePorts s m).contains n).length

/-- Does a demand page-in wait? -/
def demandWaits (s : State) : Bool := s.sill.moves.any fun m => !m.inFlight && m.cls == 0 && m.isPageIn

/-- Have these ports a slot for a move of a class, and their links? One slot of each port is kept free for demand while any
demand waits (R260, R271). -/
def portsReady (s : State) (cls : Nat) (ps : List Nat) : Bool :=
  ps.all fun n => (s.xp n).linkUp && portMoves s n < (if cls != 0 && demandWaits s then 3 else 4)

/-- Is the page of an eviction clean, so that nothing needs writing (R266)? -/
def cleanFor (s : State) (c tier : Nat) : Bool :=
  cptFld s c 5 5 = 1 && cptFld s c 4 4 = 0 && (tier = 0 || cptFld s c 7 6 = tier)

/-- The free frame a move would write its copy to. -/
def moveDst (s : State) (m : Move) : Option (Nat × Nat) :=
  match m.dst with
  | some d => if parkFree s d.1 d.2 then some d else none
  | none =>
    match m.kind with
    | .evict t => chooseDst s t
    | .parked t => chooseDst s t
    | .commit _ => chooseDst s 0
    | .rebuild => chooseDst s 0
    | .pageIn _ => none
    | .detach => none

/-- Does a commit or an eviction need the old copy for its parity, and cannot read it (R259)? -/
def oldCopyBad (s : State) (m : Move) (full : Bool) : Bool :=
  cptFld s m.cpn 18 18 = 1 && !full && parkBad s (copyAt s m.cpn).1 (copyAt s m.cpn).2

/-- May the move start now? -/
def canStart (s : State) (m : Move) : Bool :=
  let src := if m.isPageIn || cptFld s m.cpn 18 18 = 1 then [(copyAt s m.cpn).1] else []
  let out := match moveDst s m with
    | some d => portsReady s m.cls (d.1 :: src)
    | none => false
  !m.inFlight && (flightOf s m.cpn).isNone &&
  (match m.kind with
   | .pageIn _ => (freeFrame s).isSome && portsReady s m.cls src
   | .evict t =>
     (match frameOfPage s m.cpn with | some f => !frameInUse s f | none => true) && (cleanFor s m.cpn t || out)
   | .commit _ => out
   | .parked _ =>
     (match moveDst s m with | some d => portsReady s m.cls [d.1, (copyAt s m.cpn).1] | none => false)
   | .rebuild => (freeFrame s).isSome && out
   | .detach => portsReady s m.cls [(copyAt s m.cpn).1])

/-- An eviction, clean or written, ends with the page parked and its frame free (R266). -/
def parkPage (m : Move) (f : Nat) (s : State) : State :=
  let age := match frameAt s f with | some fr => fr.age | none => 0
  endMove m stOk (releaseFrame f (setState m.cpn pgParked (setCpt m.cpn 31 24 age s)))

/-- Start one move. -/
def startMove (m : Move) (s : State) : State :=
  match m.kind with
  | .pageIn pre =>
    match freeFrame s with
    | none => s
    | some f =>
      let s := setFrame f (some { cpn := m.cpn, age := if pre then 0x80 else 0, ref := false }) s
      let s := setCpt m.cpn 50 32 f (setState m.cpn pgIn s)
      let s := if m.cls = 0 then s.modSill fun l => { l with evicting := false } else s
      modMove m.id (fun m => { m with inFlight := true, frame := f }) s
  | .evict t =>
    match frameOfPage s m.cpn with
    | none => dropMove m.id s
    | some f =>
      if cleanFor s m.cpn t then parkPage m f s
      else if devBad s false (frameAddr f) pageBytes then
        endMove m stUncorrected (revive m.cpn f (ueNotes false (pieces (frameAddr f) pageBytes) s))
      else if oldCopyBad s m false then endMove m stUncorrected (revive m.cpn f s)
      else match moveDst s m with
        | some d => startCopy m false f d s
        | none => s
  | .commit full =>
    match frameOfPage s m.cpn with
    | none => dropMove m.id s
    | some f =>
      if devBad s false (frameAddr f) pageBytes then
        endMove m stUncorrected (ueNotes false (pieces (frameAddr f) pageBytes) s)
      else if oldCopyBad s m full then endMove m stUncorrected s
      else match moveDst s m with
        | some d => startCopy m full f d s
        | none => s
  | .parked _ =>
    match moveDst s m with
    | some d => modMove m.id (fun m => { m with inFlight := true, writing := true, dst := some d }) (parkTake d s)
    | none => s
  | .rebuild =>
    match freeFrame s, moveDst s m with
    | some f, some d =>
      let s := zeroFrame f (setFrame f (some { cpn := m.cpn, age := 0, ref := false }) (parkTake d s))
      let g := groupOf s m.cpn
      let s := modMove m.id (fun m => { m with inFlight := true, frame := f, dst := some d,
                                               left := 1 + (otherMembers s g (slotOf s m.cpn)).length, stat := 0 }) s
      sendLoads m.id g (slotOf s m.cpn) s
    | _, _ => s
  | .detach =>
    if parkBad s (copyAt s m.cpn).1 (copyAt s m.cpn).2 then endMove m stUncorrected s else
    let copy := parkRead s (copyAt s m.cpn).1 (copyAt s m.cpn).2
    sendParity m.id (groupOf s m.cpn) copy (modMove m.id (fun m => { m with inFlight := true, left := 1, stat := 0 }) s)

/-- Turn the first prefetch entry that needs a page-in into a queued one, and drop those before it that need none
(R267). -/
def nextPrefetch (s : State) : List Nat → List Nat × Option Nat
  | [] => ([], none)
  | c :: cs =>
    let st := pageState s c
    if st = pgParked && (moveOf s c).isNone then (cs, some c)
    else if st = pgParked || st = pgOut then
      let r := nextPrefetch s cs
      (c :: r.1, r.2)
    else nextPrefetch s cs

/-- Sillage starts no move while the package is FENCED or being cleared (R272's closing rule). -/
def sillMayStart (s : State) : Bool := s.sill.en && s.glob.state != .fenced && s.glob.state != .clearing

/-- The next move in arbitration order that can start (R271). -/
def nextStart (s : State) : Option Move :=
  (List.range 6).findSome? fun k => s.sill.moves.find? fun m => m.cls == k && canStart s m

/-- Start the next move in the order of R271: a prefetch entry becomes a move, a page-in without a frame asks for one,
and then the first move that can start does. -/
def startNext (s : State) : State :=
  if !sillMayStart s then s else
  let pre := s.sill.moves.any fun m => m.isPageIn && m.cls == 1 && !m.inFlight
  let s := if pre then s else
    match nextPrefetch s s.sill.prefetch with
    | (rest, some c) => queueMove (.pageIn true) 1 c none [] (s.modSill fun l => { l with prefetch := rest })
    | (rest, none) => s.modSill fun l => { l with prefetch := rest }
  let s := if (freeFrame s).isSome then s else
    match s.sill.moves.find? fun m => m.isPageIn && !m.inFlight && m.cls == 0 with
    | some _ => wantFrame 0 s
    | none => if s.sill.moves.any fun m => m.isPageIn && !m.inFlight then wantFrame 3 s else s
  if 16 ≤ (s.sill.moves.filter (·.inFlight)).length then s
  else match nextStart s with
    | some m => startMove m s
    | none => s

/-! ### Ends of moves -/

/-- A page-in ends: its read and its CRC check decide (R259, R265); so does a frame on a stack that has failed (R452,
assumption 79). -/
def finishPageIn (m : Move) (readOk : Bool) (s : State) : State :=
  let c := m.cpn
  let d := copyAt s c
  let data := parkRead s d.1 d.2
  if readOk && !parkBad s d.1 d.2 && crc64 data = cptFld s c 191 128 && !devBad s true (frameAddr m.frame) pageBytes then
    let s := countGranules 14 (frameAddr m.frame) pageBytes (devWrite (frameAddr m.frame) data s)
    let s := setCpt c 5 4 2 s
    endMove m stOk (revive c m.frame s)
  else
    let s := setState c pgLost (releaseFrame m.frame s)
    endMove m stUncorrected (lostRecord c s)

/-- A commit whose parity traffic has ended (R268). -/
def finishCommit (m : Move) (s : State) : State :=
  match m.dst with
  | none => endMove m m.stat s
  | some d =>
    if m.stat = stOk then endMove m stOk (recordCopy m.cpn d m.crc m.dirtied s)
    else endMove m m.stat (parityDamaged m.cpn m.stat (parkDrop d s))

/-- A dirty eviction whose copy and parity are done; where the parity failed the page stays resident and dirty (R266,
R268). -/
def finishEviction (m : Move) (s : State) : State :=
  match m.dst with
  | none => endMove m m.stat s
  | some d =>
    if m.stat = stOk then parkPage m m.frame (recordCopy m.cpn d m.crc false s)
    else endMove m m.stat (parityDamaged m.cpn m.stat (revive m.cpn m.frame (parkDrop d s)))

/-- A move between park stores ends (R266); where its read fails, the page is lost as in a page-in (R259, R265). -/
def finishParked (m : Move) (readOk : Bool) (s : State) : State :=
  match m.dst with
  | none => endMove m stOk s
  | some d =>
    let old := copyAt s m.cpn
    if !readOk || parkBad s old.1 old.2 then
      endMove m stUncorrected (lostRecord m.cpn (setState m.cpn pgLost (parkDrop d s))) else
    let s := parkWrite d.1 d.2 (parkRead s old.1 old.2) s
    let s := if (s.xp d.1).tierOf d.1 = 2 then wearNote d s else s
    let s := setCpt m.cpn 86 64 (d.1 + 4 * d.2) (setCpt m.cpn 7 6 ((s.xp d.1).tierOf d.1) s)
    endMove m stOk (parkDrop old s)

/-- A rebuild whose loads have ended; a frame that cannot be read back is no copy (R269, R406). -/
def finishRebuild (m : Move) (s : State) : State :=
  match m.dst with
  | none => endMove m m.stat s
  | some d =>
    let a := frameAddr m.frame
    if m.stat = stOk && devBad s false a pageBytes then
      endMove m stUncorrected (releaseFrame m.frame (parkDrop d (ueNotes false (pieces a pageBytes) s)))
    else if m.stat = stOk then
      let s := countGranules 14 a pageBytes (correctRead a pageBytes s)
      let data := devRead s a pageBytes
      let s := parkWrite d.1 d.2 data s
      let s := if (s.xp d.1).tierOf d.1 = 2 then wearNote d s else s
      let s := recordCopy m.cpn d (crc64 data) false (setCpt m.cpn 50 32 m.frame s)
      endMove m stOk (revive m.cpn m.frame (setCpt m.cpn 18 18 1 s))
    else endMove m m.stat (releaseFrame m.frame (parkDrop d s))

/-- The parity update of a detach has ended (R268). -/
def finishDetach (m : Move) (s : State) : State :=
  if m.stat = stOk then dropMove m.id (setCpt m.cpn 18 18 0 s)
  else endMove m m.stat (parityDamaged m.cpn m.stat s)

/-- One of a move's fabric commands has ended with a status (R268, R269). -/
def moveTraffic (id st : Nat) : State → State :=
  modMove id fun m => { m with left := m.left - 1, stat := firstFail m.stat st }

/-- A move that has waited 100 ms for a link fails (R260). -/
def failMove (m : Move) (s : State) : State :=
  match m.kind with
  | .pageIn _ =>
    let s := if m.inFlight then releaseFrame m.frame s else s
    endMove m stUncorrected (lostRecord m.cpn (setState m.cpn pgLost s))
  | .evict _ =>
    let s := match m.dst with | some d => if m.inFlight then parkDrop d s else s | none => s
    match frameOfPage s m.cpn with
    | some f => endMove m stUncorrected (revive m.cpn f s)
    | none => endMove m stUncorrected s
  | .commit _ => endMove m stUncorrected (match m.dst with | some d => parkDrop d s | none => s)
  | .parked _ => endMove m stUncorrected (match m.dst with | some d => if m.inFlight then parkDrop d s else s | none => s)
  | .rebuild =>
    let s := match m.dst with | some d => parkDrop d s | none => s
    endMove m stUncorrected (if m.inFlight then releaseFrame m.frame s else s)
  | .detach => endMove m stUncorrected s

end Sys2Proof.Machine
end

