-- ==== Sys2Proof/Machine/SillWork.lean ====
section
/-! DEFINITION. Control commands in progress, and how Sillage's commands and waits go forward (09, R264 to R269; 13,
R360, R370). -/
namespace Sys2Proof.Machine

/-! ### Control commands in progress (R360) -/

/-- By its key, and by the submission index a completion shows: the oldest of that index. -/
def HostPort.ctlAt (h : HostPort) (r i : Nat) : Option CtlCmd := h.ctl.find? fun k => k.ring == r && k.index == i

def HostPort.ctlNamed (h : HostPort) (r i : Nat) : Option CtlCmd :=
  h.ctl.find? fun k => k.ring == r && k.index % 2 ^ 32 == i

def State.modCtl (x r i : Nat) (f : CtlCmd → CtlCmd) (s : State) : State :=
  s.modHost x fun h => { h with ctl := h.ctl.map fun k => if k.ring == r && k.index == i then f k else k }

/-- A control command completes (R361). -/
def finishCtl (x r i status result : Nat) (s : State) : State :=
  match (s.host x).ctlAt r i with
  | none => s
  | some k =>
    completeRing x r k.cq k.pasid i k.gen k.entry status result 0
      (s.modHost x fun h => { h with ctl := h.ctl.filter fun k => !(k.ring == r && k.index == i) })

/-! ### Fields of the Sillage control commands (R370) -/

def ctlCpn (e : List Byte) : Nat := bits (leAt e 8 4) 21 0

/-- COUNT of a Sillage control command; the commands of one page have none. -/
def ctlCount (e : List Byte) : Nat :=
  let o := entOpcode e
  if o == 0x50 || o == 0x55 then 1 else leAt e 12 4

/-- What one page of a Sillage command comes to. -/
inductive SillStep where
  | done (status : Nat)
  | wait
  deriving DecidableEq, Repr

/-- Can no frame be freed (R264)? -/
def noFrameEver (s : State) : Bool :=
  (freeFrame s).isNone && (victim s).isNone && !(s.sill.moves.any Move.isEvict)

/-- The CPT entry SILL_ATTACH writes (R264). -/
def attachEntry (e : List Byte) (frame : Nat) : Nat :=
  let pin := b2n (entOpt e)
  pgResident + fld 3 pin + fld 4 1 + fld 8 (bits (leAt e 12 1) 3 0) + fld 12 (bits (leAt e 13 1) 5 0)
  + fld 32 frame + fld 87 (leAt e 14 1 % 2) + fld 88 (leAt e 16 8 / 8) + fld 192 (bits (leAt e 32 4) 19 0)
  + fld 212 (bits (leAt e 32 4) 27 24) + fld 216 (leAt e 24 8 / 8)

/-- SILL_ATTACH of its page (R264). -/
def attachStep (e : List Byte) (c : Nat) (s : State) : SillStep × State :=
  if pageState s c != pgFree then (.done stStateReject, noteLost c s)
  else match freeFrame s with
    | some f =>
      let s := zeroFrame f (setFrame f (some { cpn := c, age := 0, ref := false }) s)
      let s := devPut (cptAddr s c) (leBytes 32 (attachEntry e f)) s
      (.done stOk, writeLeaves c (residentLeaf f) s)
    | none => if noFrameEver s then (.done stHoldFull, s) else (.wait, wantFrame 3 s)

/-- The end of a detach: the frame and the copy are freed and FREE is written; until the old translations are drained it
waits (R264, R266). -/
def detachEnd (c : Nat) (s : State) : SillStep × State :=
  let s := writeLeaves c clearedLeaf s
  let s := match frameOfPage s c with | some f => dropFrame f s | none => s
  if (match frameOfPage s c with | some f => frameInUse s f | none => false) then (.wait, s)
  else
    let s := match frameOfPage s c with | some f => releaseFrame f s | none => s
    let s := if cptFld s c 5 5 = 1 then parkDrop (copyAt s c) s else s
    (.done stOk, devPut (cptAddr s c) (leBytes 32 (fld 192 noGroup)) s)

/-- SILL_DETACH of one page; every queued move of it is cancelled (R264, R268, R273). -/
def detachStep (w : Bool → Waiter) (c : Nat) (s : State) : SillStep × State :=
  let s := noteLost c s
  if pageState s c = pgFree then (.done stStateReject, s)
  else match flightOf s c with
    | some m => (.wait, addWaiter m.id (w false) s)
    | none =>
      let s := cancelEviction c s
      let s := forEach (s.sill.moves.filter fun m => m.cpn == c) (fun m => dropMove m.id) s
      if cptFld s c 18 18 = 1 && inGroup s c then (.wait, queueMove .detach 2 c none [w true] s)
      else detachEnd c s

/-- SILL_PIN and SILL_UNPIN of one page (R264). -/
def pinStep (on : Bool) (c : Nat) (s : State) : SillStep × State :=
  if on && pageState s c != pgResident then (.done stStateReject, noteLost c s)
  else (.done stOk, setCpt c 3 3 (b2n on) s)

/-- SILL_MOVE of one page (R264, R273). -/
def moveStep (w : Bool → Waiter) (tier c : Nat) (s : State) : SillStep × State :=
  let s := noteLost c s
  let st := pageState s c
  if !(st = pgResident || st = pgParked) then (.done stStateReject, s)
  else if tier != 0 && cptFld s c 3 3 = 1 then (.done stStateReject, s)
  else match moveOf s c with
    | some m => (.wait, addWaiter m.id (w false) s)
    | none =>
      if st = pgParked && s.sill.prefetch.contains c then (.wait, s)
      else if st = pgResident then
        if tier = 0 then (.done stOk, s)
        else match frameOfPage s c with
          | some f => (.wait, beginEviction tier 3 f c [w true] s)
          | none => (.done stStateReject, s)
      else if tier = 0 then (.wait, queueMove (.pageIn false) 1 c none [w true] s)
      else if cptFld s c 7 6 = tier then (.done stOk, s)
      else (.wait, queueMove (.parked tier) 4 c none [w true] s)

/-- SILL_REBUILD of its page (R264, R269). -/
def rebuildStep (w : Bool → Waiter) (c : Nat) (s : State) : SillStep × State :=
  let s := noteLost c s
  let st := pageState s c
  if !(st = pgLost || st = pgFree) || !inGroup s c then (.done stStateReject, s)
  else match moveOf s c with
    | some m => (.wait, addWaiter m.id (w false) s)
    | none =>
      if noFrameEver s then (.done stHoldFull, s)
      else
        let s := if (freeFrame s).isNone then wantFrame 2 s else s
        (.wait, queueMove .rebuild 2 c none [w true] s)

/-- SILL_COMMIT of one page (R264, R268, R273). -/
def commitStep (w : Bool → Waiter) (full : Bool) (c : Nat) (s : State) : SillStep × State :=
  let s := noteLost c s
  let st := pageState s c
  match moveOf s c with
  | some m =>
    if st = pgResident then (.wait, addWaiter m.id (w false) s)
    else if st = pgOut && m.isEvict then (.wait, addWaiter m.id (w true) s)
    else (.done stStateReject, s)
  | none =>
    if st = pgResident then (.wait, queueMove (.commit full) 2 c none [w true] s) else (.done stStateReject, s)

/-- One page of a Sillage control command (R264). -/
def ctlStep (x r i : Nat) (e : List Byte) (c : Nat) (s : State) : SillStep × State :=
  let w := Waiter.ctl x r i
  let o := entOpcode e
  if cptSize s ≤ c then (.done stBounds, s)
  else if cptBad s c then (.done stUncorrected, noteLost c s)
  else if o == 0x50 then attachStep e c s
  else if o == 0x51 then detachStep w c s
  else if o == 0x52 then pinStep true c s
  else if o == 0x53 then pinStep false c s
  else if o == 0x54 then moveStep w (leAt e 16 1 % 4) c s
  else rebuildStep w c s

/-- Does a move hold this waiter? -/
def waitsOnMove (s : State) (w : Bool → Waiter) : Bool :=
  s.sill.moves.any fun m => m.waiters.contains (w true) || m.waiters.contains (w false)

/-- A Sillage control command goes through its pages in turn as far as it can (R264). -/
def advanceCtlGo (x r i : Nat) : Nat → State → State
  | 0, s => s
  | k + 1, s =>
    match (s.host x).ctlAt r i with
    | none => s
    | some q =>
      match q.phase with
      | .queued => s
      | .running n a =>
        if waitsOnMove s (Waiter.ctl x r i) then s
        else if ctlCount q.entry ≤ n then finishCtl x r i a 0 s
        else match ctlStep x r i q.entry (ctlCpn q.entry + n) s with
          | (.wait, s) => s
          | (.done st, s) =>
            advanceCtlGo x r i k (s.modCtl x r i fun q => { q with phase := .running (n + 1) (firstFail a st) })

def isSillCtl (e : List Byte) : Bool := 0x50 ≤ entOpcode e && entOpcode e ≤ 0x55

def advanceCtl (x : Nat) (q : CtlCmd) (s : State) : State :=
  if isSillCtl q.entry && q.phase != .queued then advanceCtlGo x q.ring q.index (ctlCount q.entry + 1) s else s

/-! ### Sillage data commands (R267, R268) -/

/-- CPN and COUNT of a SILL_COMMIT (R368). -/
def commitCpn (e : List Byte) : Nat := entFld e 40 21 0
def commitCount (e : List Byte) : Nat := entFld e 40 41 32

/-- A SILL_COMMIT goes through its pages in turn as far as it can. -/
def advanceCommitGo (c t id : Nat) : Nat → State → State
  | 0, s => s
  | k + 1, s =>
    match (s.te c t).cmd id with
    | none => s
    | some q =>
      if waitsOnMove s (Waiter.te c t id) then s
      else if commitCount q.entry ≤ q.cur then endCmd c t id q.acc s
      else
        let cpn := commitCpn q.entry + q.cur
        let step := if cptSize s ≤ cpn then (SillStep.done stBounds, s)
          else if cptBad s cpn then (SillStep.done stUncorrected, noteLost cpn s)
          else commitStep (Waiter.te c t id) (entOpt q.entry) cpn s
        match step with
        | (.wait, s) => s
        | (.done st, s) =>
          advanceCommitGo c t id k
            (s.modTe c t (Te.modCmd id fun q => { q with cur := q.cur + 1, acc := firstFail q.acc st }))

/-- The CPNs of a list of 4-byte entries (R267). -/
def cpnList : Nat → List Byte → List Nat
  | 0, _ => []
  | k + 1, bs => bits (leAt bs 0 4) 21 0 :: cpnList k (bs.drop 4)

/-- Is a listed page where WAIT wants it, or nowhere a page-in could bring it (R264, R267)? -/
def prefetchSettled (s : State) (c : Nat) : Bool :=
  let st := pageState s c
  st = pgResident || st = pgLost || st = pgFree

/-- Accept lists in arrival order while the queue of 65,536 entries has room for the first; a command without WAIT then ends,
and so does one whose pages are all there (R264, R267). -/
def acceptPrefetch : Nat → State → State
  | 0, s => s
  | n + 1, s =>
    match s.sill.prefWait with
    | [] => s
    | (c, t, id) :: rest =>
      let pop := s.modSill fun y => { y with prefWait := rest }
      match (s.te c t).cmd id with
      | none => acceptPrefetch n pop
      | some q =>
        let l := cpnList (q.data.length / 4) q.data
        if q.phase != .running then acceptPrefetch n pop
        else if 65536 < s.sill.prefetch.length + l.length then s
        else
          let s := pop.modSill fun y => { y with prefetch := y.prefetch ++ l }
          acceptPrefetch n (if entOpt q.entry && !l.all (prefetchSettled s) then
              s.modTe c t (Te.modCmd id fun q => { q with cur := 1 })
            else endCmd c t id stOk s)

/-- A SILL_PREFETCH joins those whose lists wait for space. -/
def queuePrefetch (c t id : Nat) (s : State) : State :=
  let s := s.modSill fun y => { y with prefWait := y.prefWait ++ [(c, t, id)] }
  acceptPrefetch s.sill.prefWait.length s

/-- A SILL_PREFETCH with WAIT whose list has been accepted ends when every page is there (R264, R267). -/
def advancePrefetch (c t id : Nat) (s : State) : State :=
  match (s.te c t).cmd id with
  | none => s
  | some q =>
    let l := cpnList (q.data.length / 4) q.data
    if q.cur = 0 then s
    else
      let rest := l.filter fun p => !prefetchSettled s p
      if rest.isEmpty then endCmd c t id stOk s
      else s.modTe c t (Te.modCmd id fun q => { q with data := rest.flatMap (leBytes 4) })

/-- A command waiting for a context page: it translates again, ends, or waits on (R46, R265). -/
def advancePageWait (c t id cpn das page : Nat) (s : State) : State :=
  match pageVerdict s cpn with
  | some st => endCmd c t id st (noteLost cpn s)
  | none =>
    if pageState s cpn = pgResident then
      s.modTe c t (Te.modCmd id fun q => { q with phase := .walking das page })
    else demandPage cpn s

/-- One command of a TE queue after something has changed in Sillage. -/
def advanceTe (c t : Nat) (q : TeCmd) (s : State) : State :=
  match q.phase with
  | .pageWait cpn das page => advancePageWait c t q.id cpn das page s
  | .running =>
    if entOpcode q.entry == ocCommit then advanceCommitGo c t q.id (commitCount q.entry + 1) s
    else if entOpcode q.entry == ocPrefetch then advancePrefetch c t q.id s
    else s
  | .queued => s
  | .armed _ => s
  | .walking _ _ => s
  | .ats _ _ _ => s
  | .pri _ _ _ => s
  | .done _ => s

/-- Everything that waits on Sillage looks again. -/
def wakeSillage (s : State) : State :=
  let s := acceptPrefetch s.sill.prefWait.length s
  let s := forEach (List.range 16) (fun c s => forEach (List.range 8) (fun t s =>
    forEach (s.te c t).queue (advanceTe c t) s) s) s
  forEach [0, 1] (fun x s => forEach (s.host x).ctl (advanceCtl x) s) s

end Sys2Proof.Machine
end

