-- ==== Sys2Proof/Machine/TeCheck.lean ====
section
/-! DEFINITION. The checks of a command: its opcode, its fields, its legality, and every range it names (02, R37 to R56;
03, R82; 13, R363 to R370). -/
namespace Sys2Proof.Machine

/-! ### Check 2: fields and limits -/

/-- The chunk range of R237. -/
def chunkLen (n : Nat) : Bool := 16 ≤ n && n ≤ 2 ^ 36 - 16 && n % 16 == 0

/-- 16 bytes to 2^36, in 16-byte units (R369). -/
def unitLen (n : Nat) : Bool := 16 ≤ n && n ≤ 2 ^ 36 && n % 16 == 0

/-- The options of the common part a command does not have are zero, and so are its reserved bits (R369). -/
def commonOk (e : List Byte) (f sl vf ms opt stag step : Bool) : Bool :=
  (f || !entF e) && (sl || !entSeal e) && (vf || !entVerify e) && (ms || !entMeasure e) && (opt || !entOpt e)
  && (stag || entStag e == 0) && (step || entStep e == 0) && !bit (leAt e 0 8) 15 && entFld e 0 31 22 == 0

/-- Reserved bits of bytes 24 to 63 of a data command (R368). -/
def dataReservedOk (e : List Byte) : Bool :=
  entFld e 24 39 37 == 0 && entFld e 24 43 43 == 0 && entFld e 24 47 47 == 0 && leAt e 36 4 == 0 && leAt e 56 8 == 0

/-- Fields of bytes 8 to 63 that a data command does not use are zero. -/
def unusedOk (e : List Byte) (src dst len remote tree op1 op2 : Bool) : Bool :=
  (src || (entSrc e == 0 && entSrcSpace e == 0)) && (dst || (entDst e == 0 && entDstSpace e == 0))
  && (len || entLength e == 0) && (remote || (entAttr e == 0 && entWgen e == 0))
  && (tree || leAt e 32 4 == 0) && (op1 || entOperand e == 0) && (op2 || entOperand2 e == 0)

/-- CTX and CNT of an OPUT or LSEPUT (R96, R101). -/
def treeFieldsOk (e : List Byte) : Bool :=
  let lv := entPcnt e % 16
  lv ≤ 12 && entLevel e ≤ lv && entIndex e < 2 ^ (lv - entLevel e)

/-- A 32-bit operand uses bytes 0 to 3 only (R92). -/
def operandOk (e : List Byte) (v : Nat) : Bool := typeSize (entAttr e % 16) == 8 || v < 2 ^ 32

/-- Check 2 of R363 for a data command but for ATTR: reserved and unused fields, and limits (R368, R369). -/
def dataFieldsOk (e : List Byte) : Bool :=
  let o := entOpcode e
  let n := entLength e
  let ss := entSrcSpace e
  let ds := entDstSpace e
  let local_ := fun (k : Nat) => k ≤ 3
  let chunky := entSeal e || entVerify e
  dataReservedOk e &&
  (if o == ocCopy then
     commonOk e false true true true false false true && unusedOk e true true true false false false false
     && local_ ss && local_ ds && (!entMeasure e || ds ≤ 2) && (if chunky then chunkLen n else 1 ≤ n && n ≤ 2 ^ 36)
   else if o == ocVerify then
     commonOk e false false false false false false true && unusedOk e true false true false false false false
     && local_ ss && chunkLen n
   else if o == ocPut || o == ocMput then
     commonOk e true true false false false true true && unusedOk e true true true true false false false
     && local_ ss && ds == 4 && (if entSeal e then chunkLen n else unitLen n) && entDst e % 16 == 0
   else if o == ocGet then
     commonOk e false false false false false true true && unusedOk e true true true true false false false
     && ss == 4 && local_ ds && unitLen n && entSrc e % 16 == 0
   else if o == ocRput then
     commonOk e false false false false false true true && unusedOk e true true true true false false false
     && local_ ss && ds == 4 && unitLen n && entDst e % 16 == 0
   else if o == ocOput then
     commonOk e false false false false false true true && unusedOk e true true true true true false false
     && local_ ss && ds == 4 && 16 ≤ n && n ≤ 4096 && n % 16 == 0 && entDst e % 16 == 0 && treeFieldsOk e
     && entPcnt e / 16 == 0
   else if o == ocLseput then
     commonOk e false false false false false true true && unusedOk e true true true true true false false
     && local_ ss && ds == 4 && 16 ≤ n && n ≤ 4096 && entDst e % 16 == 0 && treeFieldsOk e
     && 1 ≤ entPcnt e / 16 && n % lseBlock (entPcnt e) == 0
   else if o == ocAtomic then
     commonOk e false false false false false true true
     && unusedOk e true true true true false true (entFabricOp e == opCswap)
     && local_ ss && ds == 4 && n == typeSize (entAttr e % 16) && entDst e % n == 0
     && operandOk e (entOperand e) && operandOk e (entOperand2 e)
   else if o == ocPrefetch then
     commonOk e false false false false true false true && unusedOk e true false true false false false false
     && ss ≤ 2 && 4 ≤ n && n ≤ 16384 && n % 4 == 0
   else if o == ocCommit then
     commonOk e false false false false true false true && unusedOk e false false false false false true false
     && 1 ≤ commitCount e && commitCount e ≤ 512 && entOperand e / 2 ^ 42 == 0 && entFld e 40 31 22 == 0
   else commonOk e false false false false false false false && (e.drop 8).all (· == 0))

/-- Check 2 for a data command, with ATTR first for one that sends packets (R82, R363, R369). -/
def dataCheck2 (e : List Byte) : Option Nat :=
  if entRemote e && !attrOk (entFabricOp e) (entAttr e) then some stUnsupported
  else if dataFieldsOk e then none else some stMalformed

/-! ### Check 3: package state and unit conditions (R365, R366) -/

/-- Entries of the measurement log in use or reserved (R378). -/
def logUsed (s : State) : Nat :=
  s.sealCore.log.length
  + ((s.clusters.map fun cl => ((cl.2.tes.map fun te =>
      (te.2.queue.filter (·.reserved)).length).foldl (· + ·) 0)).foldl (· + ·) 0)
  + ((s.hosts.map fun h => (h.2.ctl.filter (·.reserved)).length).foldl (· + ·) 0)

def inStates (s : State) (l : List PkgState) : Bool := l.contains s.glob.state

/-- Check 3 for a data command (R365, R366). -/
def dataCheck3 (s : State) (e : List Byte) : Option Nat :=
  let o := entOpcode e
  if o == 0 then none
  else if !inStates s (if entMeasure e then [.assigned, .running] else [.assigned, .running, .draining]) then
    some stStateReject
  else if (o == ocPrefetch || o == ocCommit) && !s.sill.en then some stStateReject
  else if entMeasure e && 512 ≤ logUsed s then some stStateReject
  else none

/-- Checks 1 to 3 of a data command at its taking; `sillTe` says it stands at the Sillage TE (R363, R369). -/
def dataVerdict (s : State) (sillTe : Bool) (e : List Byte) : Option Nat :=
  if ocCommit < entOpcode e || sillTe then some stUnsupported
  else match dataCheck2 e with
    | some st => some st
    | none => dataCheck3 s e

/-- Is a TE the one Sillage uses (R264, R369)? -/
def isSillTe (s : State) (c t : Nat) : Bool := s.sill.en && s.sill.cluster == c && s.sill.te == t

/-! ### Check 4: ranges -/

/-- What the checks of a command's ranges come to. -/
inductive Chk where
  | ok
  /-- `addr` is the first byte of the range that fails, `off` its offset within the range (R375) -/
  | fail (status addr dpa off : Nat)
  /-- a device page needs a translation -/
  | walk (das page addr off : Nat)
  /-- a host page needs an ATS translation -/
  | ats (page : Nat) (write : Bool) (addr off : Nat)
  deriving DecidableEq, Repr

/-- The first check that does not pass. -/
def Chk.andThen (a : Chk) (b : Unit → Chk) : Chk :=
  match a with
  | .ok => b ()
  | .fail st ad d o => .fail st ad d o
  | .walk d p ad o => .walk d p ad o
  | .ats p w ad o => .ats p w ad o

/-- The first of a list of checks that does not pass. -/
def allOk {α : Type} (f : α → Chk) : List α → Chk
  | [] => .ok
  | a :: l => (f a).andThen fun _ => allOk f l

/-- A range a command names: its space, address and length, and whether it is written. -/
structure Rng where
  space : Nat
  addr  : Nat
  len   : Nat
  write : Bool
  deriving DecidableEq, Repr

/-- The ranges of a data command: those it reads, then those it writes (R48, R237, R238). -/
def rangesOf (e : List Byte) : List Rng :=
  let o := entOpcode e
  let n := entLength e
  let src := fun k w => ({ space := entSrcSpace e, addr := entSrc e, len := k, write := w } : Rng)
  let dst := fun k => ({ space := entDstSpace e, addr := entDst e, len := k, write := true } : Rng)
  let sealLen := if entSeal e then 16 else 0
  if o == ocCopy then [src (n + if entVerify e then 16 else 0) false, dst (n + sealLen)]
  else if o == ocVerify then [src (n + 16) false]
  else if o == ocAtomic then [src 8 true, dst n]
  else if o == ocPrefetch then [src n false]
  else if o == ocCommit || o == 0 then []
  else [src n false, dst (n + sealLen)]

/-- The translation of a virtual page: one the command holds, or one of the cluster's cache (R44). -/
def transOf (s : State) (c : Nat) (q : TeCmd) (das page : Nat) : Option Trans :=
  (q.trans ++ (s.cluster c).tlb).find? fun t => t.das == das && t.page ≤ page && page < t.page + t.count

/-- Pages of 2 MiB that a virtual range touches. -/
def pagesOf (a n : Nat) : List Nat :=
  if n = 0 then [] else (List.range ((a + n - 1) / pageBytes - a / pageBytes + 1)).map (a / pageBytes + ·)

/-- One device page of a range (R44 to R47). The address of a failure is the range's first byte in the page. -/
def chkPage (s : State) (c : Nat) (q : TeCmd) (g : Rng) (page : Nat) : Chk :=
  let a := max g.addr (page * pageBytes)
  match transOf s c q q.das page with
  | none => .walk q.das page a (a - g.addr)
  | some t => if bit t.entry (if g.write then 3 else 2) then .ok else .fail stPermission a 0 (a - g.addr)

/-- Is DAS `n` usable (R41, R42)? -/
def dasUsable (s : State) (n : Nat) : Bool := SMap.get false s.glob.dasValid n

/-- Can the command still reach host memory through its port (R380)? -/
def hostReach (s : State) (x gen : Nat) : Bool := (s.host x).linkUp && (s.host x).gen == gen

/-- Host pages of 4 KiB a range touches. -/
def hostPages (a n : Nat) : List Nat :=
  if n = 0 then [] else (List.range ((a + n - 1) / 4096 - a / 4096 + 1)).map (a / 4096 + ·)

/-- One host page: untranslated, or through the ATC (R53). -/
def chkHostPage (s : State) (q : TeCmd) (g : Rng) (page : Nat) : Chk :=
  let a := max g.addr (page * 4096)
  if hostPageOk s q.hport q.pasid page g.write then .ok else .ats page g.write a (a - g.addr)

/-- Do the cores of a cluster exist (R3, R38)? -/
def coresEnabled (s : State) (c : Nat) : Bool := bit s.boot.enabled c

/-- Every check of one range, in order (R37, R38, R42 to R48, R56, R368). -/
def chkRange (s : State) (c : Nat) (q : TeCmd) (g : Rng) : Chk :=
  if g.space = 0 then
    if 2 ^ 24 ≤ g.addr || 2 ^ 21 < g.addr % 2 ^ 21 + g.len then .fail stBounds g.addr 0 0
    else if !coresEnabled s c then .fail stUnsupported g.addr 0 0 else .ok
  else if g.space = 1 then
    if 2 ^ 24 < g.addr + g.len then .fail stBounds g.addr 0 0 else .ok
  else if g.space = 2 then
    if !dasUsable s q.das then .fail stPermission g.addr 0 0
    else if 2 ^ 48 ≤ g.addr then .fail stMalformed g.addr 0 0
    else if 2 ^ 48 < g.addr + g.len then .fail stBounds g.addr 0 0
    else allOk (chkPage s c q g) (pagesOf g.addr g.len)
  else if g.space = 3 then
    if 2 ^ 64 < g.addr + g.len then .fail stBounds g.addr 0 0
    else if !hostReach s q.hport q.hgen then .fail stTimeout g.addr 0 0
    else allOk (chkHostPage s q g) (hostPages g.addr g.len)
  else if entOpcode q.entry != ocMput && 144 ≤ g.addr / 2 ^ 56 then .fail stMalformed g.addr 0 0
  else if g.addr / 2 ^ 40 != (g.addr + g.len - 1) / 2 ^ 40 then .fail stBounds g.addr 0 0
  else .ok

/-- Check 4 of R363 for a data command; a command of Sillage's own has local ranges of its own making. -/
def chkCmd (s : State) (c : Nat) (q : TeCmd) : Chk :=
  match q.origin with
  | .sill _ => allOk (chkRange s c q) ((rangesOf q.entry).filter fun g => g.space == 4)
  | .ring _ _ _ _ => allOk (chkRange s c q) (rangesOf q.entry)
  | .core _ _ _ _ _ _ => allOk (chkRange s c q) (rangesOf q.entry)

/-- The checks of a command at its taking: the first that fails decides its status. A translation that is not at hand is
made, and its page checked, when the TE starts the command (R48, R363). -/
def judged (s : State) (c t : Nat) (q : TeCmd) : TeCmd :=
  match dataVerdict s (isSillTe s c t) q.entry with
  | some st => { q with verdict := some st }
  | none =>
    match chkCmd s c q with
    | .fail st a d o => { q with verdict := some st, failAddr := a, failDpa := d, failOff := o }
    | .ok => q
    | .walk _ _ _ _ => q
    | .ats _ _ _ _ => q

/-! ### Walks (R44 to R46) -/

/-- What a walk of the device page tables finds. -/
inductive WalkEnd where
  | leaf (t : Trans)
  /-- a context page that is away -/
  | away (cpn dpa : Nat)
  | bad (status dpa : Nat)
  deriving DecidableEq, Repr

/-- Must-be-zero bits of an entry (R44). -/
def entryReservedOk (e : Nat) : Bool := bits e 11 5 == 0 && bits e 63 43 == 0

/-- The second level of a walk, or an entry of a paged window; `lens` ignores LEAF (R61). -/
def leafEnd (s : State) (lens : Bool) (das page e dpa : Nat) : WalkEnd :=
  if !entryReservedOk e || bits e 20 12 != 0 || (!lens && !bit e 4) then .bad stBounds dpa
  else if bit e 0 then
    if rangeBacked s (bits e 42 21 * pageBytes) pageBytes then
      .leaf { das := das, page := page, count := 1, entry := e }
    else .bad stBounds dpa
  else if bit e 1 then .away (bits e 42 21) dpa
  else .bad stBounds dpa

/-- A walk of both levels (R44, R45); an entry in a granule with an uncorrectable error ends it UNCORRECTED. -/
def walkEnd (s : State) (das page : Nat) : WalkEnd :=
  let a1 := SMap.get 0 s.glob.dasRoot das * pageBytes + 8 * (page / 512)
  if devBad s false a1 8 then .bad stUncorrected a1
  else
    let e := leVal (devRead s a1 8)
    if !bit e 0 || bit e 1 || !entryReservedOk e then .bad stBounds a1
    else if bit e 4 then
      if bits e 29 12 == 0 && rangeBacked s (bits e 42 30 * 2 ^ 30) (2 ^ 30) then
        .leaf { das := das, page := page / 512 * 512, count := 512, entry := e }
      else .bad stBounds a1
    else
      let base := bits e 42 12 * 4096
      if !inTier0 base 4096 then .bad stBounds a1
      else
        let a2 := base + 8 * (page % 512)
        if devBad s false a2 8 then .bad stUncorrected a2
        else leafEnd s false das page (leVal (devRead s a2 8)) a2

/-- A walk wakes the stacks its entries lie on (R385). -/
def wakeWalk (s : State) (das page : Nat) : State :=
  let a1 := SMap.get 0 s.glob.dasRoot das * pageBytes + 8 * (page / 512)
  wakeStacks (bits (leVal (devRead s a1 8)) 42 12 * 4096 + 8 * (page % 512)) 8 (wakeStacks a1 8 s)

/-- Keep a translation in a cluster's cache of 1,024 (R44, R48). -/
def cacheTrans (c : Nat) (t : Trans) : State → State :=
  State.modCluster c fun cl => { cl with tlb := (t :: cl.tlb.filter (· != t)).take 1024 }

/-- Device address of a virtual address under a translation. -/
def Trans.dpa (t : Trans) (va : Nat) : Nat :=
  if t.count = 1 then bits t.entry 42 21 * pageBytes + va % pageBytes else bits t.entry 42 30 * 2 ^ 30 + va % 2 ^ 30

end Sys2Proof.Machine
end

