-- ==== Sys2Proof/Machine/TeRun.lean ====
section
/-! DEFINITION. What a transfer engine does: local copies, the packets of remote commands, responses, the start of a
command and the report of its end (02, 03, 04, 08, 13). -/
namespace Sys2Proof.Machine

/-! ### Local stretches -/

/-- A stretch of bytes a command reads or writes in this package or in host memory. -/
inductive LSeg where
  | spm (core off len : Nat)
  | pool (off len : Nat)
  | dev (addr len : Nat)
  | host (addr len : Nat)
  deriving DecidableEq, Repr

def LSeg.len : LSeg → Nat
  | .spm _ _ n => n
  | .pool _ n => n
  | .dev _ n => n
  | .host _ n => n

/-- The stretches of a range, page by page for device memory (R43, R44, R368). -/
def segsOf (s : State) (c : Nat) (q : TeCmd) (space addr len : Nat) : List LSeg :=
  if space = 0 then [.spm (addr / 2 ^ 21) (addr % 2 ^ 21) len]
  else if space = 1 then [.pool addr len]
  else if space = 2 then
    (pagesOf addr len).map fun p =>
      let lo := max addr (p * pageBytes)
      let hi := min (addr + len) ((p + 1) * pageBytes)
      match transOf s c q q.das p with
      | some t => .dev (t.dpa lo) (hi - lo)
      | none => .dev tier0Size (hi - lo)
  else [.host addr len]

/-- Offset of the first byte of a stretch that an uncorrectable error spoils (R148, R253). -/
def LSeg.bad (s : State) (c : Nat) (write : Bool) : LSeg → Option Nat
  | .spm k off n =>
    if write then none
    else ((wordsOf off n).find? fun w => (s.core c k).spmBad.contains w).map fun w => 8 * w - off
  | .pool off n =>
    if write then none
    else ((wordsOf off n).find? fun w => (s.cluster c).poolBad.contains w).map fun w => 8 * w - off
  | .dev a n => ((pieces a n).find? (pieceBad s write)).map fun p => p.1 - a
  | .host _ _ => none

/-- Offset within a range of its first bad byte. -/
def firstBad (s : State) (c : Nat) (write : Bool) : Nat → List LSeg → Option Nat
  | _, [] => none
  | off, g :: gs => match g.bad s c write with
    | some o => some (off + o)
    | none => firstBad s c write (off + g.len) gs

/-- The MEM_UE notes of a refused access (R253). -/
def badNotes (write : Bool) (gs : List LSeg) (s : State) : State :=
  forEach gs (fun g s => match g with
    | .dev a n => ueNotes write (pieces a n) s
    | .spm _ _ _ => s
    | .pool _ _ => s
    | .host _ _ => s) s

/-- The bytes of a stretch; host memory returns the command's data. -/
def LSeg.bytes (s : State) (c : Nat) (host : List Byte) : LSeg → List Byte
  | .spm k off n => (s.core c k).spm.readN off n
  | .pool off n => (s.cluster c).pool.readN off n
  | .dev a n => devRead s a n
  | .host _ n => fitBytes n host

def readSegs (s : State) (c : Nat) (host : List Byte) (gs : List LSeg) : List Byte := gs.flatMap (LSeg.bytes s c host)

/-- What reading leaves behind: referenced bits, corrected words, the reads a host sees, and the granules counted (R148,
R253, R267, R468). -/
def noteReads (c : Nat) (q : TeCmd) (gs : List LSeg) (s : State) : State :=
  forEach gs (fun g s => match g with
    | .dev a n => countGranules 0 a n (correctRead a n (touch false a n s))
    | .host a n => s.emit (.hostRead q.hport q.pasid a n)
    | .spm k off n => (wakeDomain (spmDom c k) s).modCore c k (Core.mend off n)
    | .pool off n => (wakeDomain (poolDom c) s).modCluster c (Cluster.mend off n)) s

/-- Write one stretch. -/
def writeSeg (c : Nat) (q : TeCmd) (g : LSeg) (bs : List Byte) (s : State) : State :=
  match g with
  | .spm k off _ => (wakeDomain (spmDom c k) s).modCore c k (Core.spmPut off bs)
  | .pool off n =>
    noteScope c off n none ((wakeDomain (poolDom c) s).modCluster c (Cluster.poolPut off bs))
  | .dev a n => countGranules 1 a n (touch true a n (devWrite a bs s))
  | .host a _ => s.emit (.hostWrite q.hport q.pasid a bs)

/-- Write the segments; the bytes are in memory from then on, for whoever reads them (assumption 83). -/
def writeSegs (c : Nat) (q : TeCmd) : List LSeg → List Byte → State → State
  | [], _, s => s
  | g :: gs, bs, s => writeSegs c q gs (bs.drop g.len) (writeSeg c q g (bs.take g.len) s)

/-- Bytes of a free value. -/
def freeBytes (v n : Nat) : List Byte := leBytes n v

/-- A destination left undefined: free bytes wherever the write can land, none in host memory (R238, R378, assumption
2). -/
def spoilSeg (c : Nat) (q : TeCmd) (g : LSeg) (s : State) : State :=
  let v := s.draw
  match g with
  | .spm _ _ n => writeSeg c q g (freeBytes v n) s.drawn
  | .pool _ n => writeSeg c q g (freeBytes v n) s.drawn
  | .dev a n =>
    forEach ((pieces a n).filter fun p => !pieceBad s true p)
      (fun p s => (touch true p.1 p.2 (devWrite p.1 (freeBytes s.draw p.2) s)).drawn) s
  | .host _ _ => s

def spoil (c : Nat) (q : TeCmd) (gs : List LSeg) (s : State) : State := forEach gs (spoilSeg c q) s

/-- End a command that failed, with its failing address, entry and offset. -/
def failCmd (c t id status addr dpa off : Nat) (s : State) : State :=
  endCmd c t id status (s.modTe c t (Te.modCmd id fun q =>
    { q with failAddr := addr, failDpa := dpa, failOff := off, reserved := false }))

/-- Host memory returned fewer bytes than were read: a completion did not arrive within the port's completion timeout (R55,
assumption 69). -/
def hostShort (q : TeCmd) (gs : List LSeg) : Bool :=
  gs.any fun g => match g with
    | .host _ n => q.data.length < n
    | .spm _ _ _ => false
    | .pool _ _ => false
    | .dev _ _ => false

/-- End a command whose host read timed out. -/
def hostTimeout (c t : Nat) (q : TeCmd) (s : State) : State :=
  failCmd c t q.id stTimeout (entSrc q.entry + q.data.length) 0 q.data.length s

/-! ### Seals and measured loads (R237, R238, R378) -/

/-- The seal of a chunk. -/
def sealOf (data : List Byte) (step : Nat) : List Byte :=
  leBytes 8 (crc64 data) ++ leBytes 2 step ++ leBytes 4 (data.length / 16) ++ zeros 2

/-- Does the seal carry the chunk's CRC, step and length? -/
def sealMatches (data seal_ : List Byte) (step : Nat) : Bool := (sealOf data step).take 14 == seal_.take 14

/-- The descriptor of a measured load (R378). -/
def measureDesc (op space mask len dst : Nat) : List Byte :=
  leBytes 1 op ++ leBytes 1 space ++ leBytes 1 mask ++ zeros 1 ++ leBytes 4 len ++ leBytes 8 dst

/-- Append the digest of a measured load; the answer is its index in the log (R378). -/
def appendMeasure (desc bytes : List Byte) (s : State) : Nat × State :=
  (s.sealCore.log.length, s.modSeal fun k => { k with log := k.log ++ [shake256 (desc ++ bytes)] })

/-! ### Local commands -/

/-- COPY and VERIFY, once every check has passed (R237, R238, R369), in one step (assumption 88). -/
def runLocal (c t : Nat) (q : TeCmd) (s : State) : State :=
  let e := q.entry
  let n := entLength e
  let verify := entOpcode e == ocVerify || entVerify e
  let copies := entOpcode e == ocCopy
  let src := segsOf s c q (entSrcSpace e) (entSrc e) (if verify then n + 16 else n)
  let dst := if copies then segsOf s c q (entDstSpace e) (entDst e) (if entSeal e then n + 16 else n) else []
  let s := countEpb c 23 (cdiv n 16) (noteReads c q src s)
  match firstBad s c false 0 src with
  | some o => failCmd c t q.id stUncorrected (entSrc e + o) 0 o (spoil c q dst (badNotes false src s))
  | none =>
    if hostShort q src then hostTimeout c t q (spoil c q dst s) else
    let all := readSegs s c q.data src
    let data := all.take n
    if verify && !sealMatches data (all.drop n) (entStep e) then
      failCmd c t q.id stCheckFailed (entSrc e) 0 0 (spoil c q dst s)
    else match firstBad s c true 0 dst with
      | some o => failCmd c t q.id stUncorrected (entDst e + o) 0 o (spoil c q dst (badNotes true dst s))
      | none =>
        let out := data ++ (if entSeal e then sealOf data (entStep e) else [])
        let s := writeSegs c q dst out s
        if entMeasure e then
          let r := appendMeasure (measureDesc (entOpcode e) (entDstSpace e) 0 n (entDst e)) out s
          endCmd c t q.id stOk (r.2.modTe c t (Te.modCmd q.id fun q => { q with result := r.1, reserved := false }))
        else endCmd c t q.id stOk s

/-- SILL_PREFETCH reads its list and joins the queue (R267). -/
def runPrefetch (c t : Nat) (q : TeCmd) (s : State) : State :=
  let e := q.entry
  let src := segsOf s c q (entSrcSpace e) (entSrc e) (entLength e)
  let s := noteReads c q src s
  match firstBad s c false 0 src with
  | some o => failCmd c t q.id stUncorrected (entSrc e + o) 0 o (badNotes false src s)
  | none =>
    let bs := readSegs s c [] src
    let k := bs.length / 4
    if (List.range k).any fun i => leAt bs (4 * i) 4 / 2 ^ 22 != 0 then failCmd c t q.id stMalformed (entSrc e) 0 0 s
    else if (cpnList k bs).any fun p => cptSize s ≤ p then failCmd c t q.id stBounds (entSrc e) 0 0 s
    else queuePrefetch c t q.id (s.modTe c t (Te.modCmd q.id fun q => { q with data := bs, cur := 0 }))

/-! ### Packets of remote commands (R77, R83, R91, R92) -/

/-- Pieces of a remote range that do not cross a 4 KiB boundary: (offset, length). -/
def splitGo : Nat → Nat → Nat → Nat → List (Nat × Nat)
  | 0, _, _, _ => []
  | k + 1, a, off, n =>
    if n = 0 then [] else
    let l := min n (4096 - a % 4096)
    (off, l) :: splitGo k (a + l) (off + l) (n - l)

def splitRemote (a n : Nat) : List (Nat × Nat) := splitGo (n / 4096 + 2) a 0 n

/-- The header of a command's packet at a global address (R77, R369). -/
def cmdHeader (s : State) (c : Nat) (e : List Byte) (addr : Nat) : Header :=
  let tree := entOpcode e == ocOput || entOpcode e == ocLseput
  { Header.zero with
    dnode := BitVec.ofNat 12 (addr / 2 ^ 52), snode := BitVec.ofNat 12 (16 * s.glob.slot + c),
    op := BitVec.ofNat 8 (entFabricOp e), stag := BitVec.ofNat 6 (entStag e),
    part := BitVec.ofNat 6 (s.glob.part.getD 0), offset := BitVec.ofNat 52 addr,
    cnt := BitVec.ofNat 16 (if tree then entPcnt e else 0), attr := BitVec.ofNat 8 (entAttr e),
    wgen := BitVec.ofNat 8 (entWgen e), step := BitVec.ofNat 16 (entStep e),
    level := BitVec.ofNat 4 (if tree then entLevel e else 0), index := BitVec.ofNat 12 (if tree then entIndex e else 0),
    vc := 1 }

def freshPkt (off : Nat) (p : Packet) : CmdPkt :=
  { off := off, pkt := p, carry := false, sent := false, tries := 0, state := .unsent }

/-- The last packet of a flagged command carries the flag (R117). -/
def flagLast : List CmdPkt → List CmdPkt
  | [] => []
  | [p] => [{ p with pkt := { p.pkt with hdr := { p.pkt.hdr with f := 1 } } }]
  | p :: q :: ps => p :: flagLast (q :: ps)

/-- The packets of a command that carries `data` (R83, R92, R117). -/
def buildPkts (s : State) (c : Nat) (e data : List Byte) : List CmdPkt :=
  let o := entOpcode e
  let g := entGlobal e
  if o == ocGet then
    (splitRemote g (entLength e)).map fun p =>
      freshPkt p.1 (Packet.make { cmdHeader s c e (g + p.1) with cnt := BitVec.ofNat 16 (p.2 / 16) } [])
  else if o == ocAtomic then
    let second := if entFabricOp e == opCswap then leBytes 8 (entOperand2 e) else zeros 8
    [freshPkt 0 (Packet.make (cmdHeader s c e g) (leBytes 8 (entOperand e) ++ second))]
  else if o == ocOput || o == ocLseput then [freshPkt 0 (Packet.make (cmdHeader s c e g) data)]
  else
    let ps := (splitRemote g data.length).map fun p =>
      freshPkt p.1 (Packet.make (cmdHeader s c e (g + p.1)) ((data.drop p.1).take p.2))
    if entF e then flagLast ps else ps

/-- A remote command reads its bytes and has its packets built (R48, R83). -/
def runRemote (c t : Nat) (q : TeCmd) (s : State) : State :=
  let e := q.entry
  let n := entLength e
  let reads := !(entOpcode e == ocGet || entOpcode e == ocAtomic) &&
    (match q.origin with | .sill _ => false | .ring _ _ _ _ => true | .core _ _ _ _ _ _ => true)
  let src := if reads then segsOf s c q (entSrcSpace e) (entSrc e) n else []
  let s := countEpb c 23 (cdiv n 16) (noteReads c q src s)
  match firstBad s c false 0 src with
  | some o => failCmd c t q.id stUncorrected (entSrc e + o) 0 o (badNotes false src s)
  | none =>
    if hostShort q src then hostTimeout c t q s else
    let data := if reads then readSegs s c q.data src else q.data
    let data := if entSeal e then data ++ sealOf data (entStep e) else data
    let ps := buildPkts s c e data
    s.modTe c t (Te.modCmd q.id fun q => { q with pkts := ps })

/-! ### Sending (R84, R114, R117 to R119) -/

/-- The first command that has packets to send, and the first of them. -/
def nextUnsent (te : Te) : Option (TeCmd × Nat) :=
  te.queue.findSome? fun q =>
    if q.phase == .running then (q.pkts.findIdx? fun p => p.state == .unsent).map fun k => (q, k) else none

/-- The lowest free slot (assumption 35). -/
def freeSlot (te : Te) : Option Nat := (List.range 512).find? fun i => te.slotAt i == .free

/-- A carry ahead of a counted store (R91). -/
def carryFor (p : CmdPkt) : CmdPkt :=
  let h := p.pkt.hdr
  let op := if h.op.toNat == opMcast then opMcast else opCarry
  let h' : Header := { h with op := BitVec.ofNat 8 op, offset := 0, wgen := 0, attr := 0, f := 1, cnt := 65535 }
  { off := p.off, pkt := Packet.make h' [], carry := true, sent := false, tries := 0, state := .unsent }

/-- Does a counted store need a carry first (R119)? -/
def needsCarry (te : Te) (p : CmdPkt) : Bool :=
  inStream p.pkt.hdr.op.toNat && p.pkt.hdr.f == 0 && (te.stream (streamKey p.pkt.hdr)).count == 65535

/-- The stream as the packet with this TID is sent (R117, R118). -/
def streamSend (h : Header) (tid : Nat) (te : Te) : Te :=
  if !inStream h.op.toNat then te
  else te.modStream (streamKey h) fun m =>
    if h.f = 1 then { count := 0, open_ := [], closed := m.closed ++ m.open_, shut := m.open_, flag := some tid }
    else { m with count := m.count + 1, open_ := m.open_ ++ [tid] }

/-- The packet as it goes out: its TID, and the count of a flag (R84, R117). -/
def outgoing (te : Te) (tid : Nat) (p : CmdPkt) : Packet :=
  let h := p.pkt.hdr
  let cnt := if inStream h.op.toNat && h.f = 1 && !p.carry then BitVec.ofNat 16 (te.stream (streamKey h)).count else h.cnt
  { p.pkt with hdr := { h with tid := BitVec.ofNat 12 tid, cnt := cnt } }

/-- Send packet `k` of a command through slot `i`. -/
def sendPkt (c t : Nat) (q : TeCmd) (k i : Nat) (s : State) : State :=
  match q.pkts[k]? with
  | none => s
  | some p =>
    let tid := 512 * t + i
    let out := outgoing (s.te c t) tid p
    let s := s.modTe c t fun te =>
      ((streamSend p.pkt.hdr tid te).setSlot i (.busy q.id k)).modCmd q.id fun q =>
        { q with pkts := modAt (fun p => { p with pkt := out, sent := true, state := .outstanding i }) q.pkts k }
    inject c out (countEpb c 24 1 s)

/-- Insert a carry before packet `k`. -/
def insertCarry (c t : Nat) (q : TeCmd) (k : Nat) (p : CmdPkt) : State → State :=
  State.modTe c t (Te.modCmd q.id fun q => { q with pkts := q.pkts.take k ++ carryFor p :: q.pkts.drop k })

/-- A carry whose stream no longer stands at 65,535 is due no more (R91, R119, R120). -/
def staleCarry (te : Te) (p : CmdPkt) : Bool := p.carry && (te.stream (streamKey p.pkt.hdr)).count != 65535

def dropCarry (c t : Nat) (q : TeCmd) (k : Nat) : State → State :=
  State.modTe c t (Te.modCmd q.id fun q => { q with pkts := q.pkts.eraseIdx k })

/-- Send packets in queue order until one must wait (R84, R114, R118, R119). -/
def pumpTeGo (c t : Nat) : Nat → State → State
  | 0, s => s
  | n + 1, s =>
    let te := s.te c t
    match nextUnsent te with
    | none => s
    | some (q, k) =>
      match q.pkts[k]?, freeSlot te with
      | some p, some i =>
        if staleCarry te p then pumpTeGo c t n (dropCarry c t q k s)
        else if needsCarry te p then pumpTeGo c t n (insertCarry c t q k p s)
        else if gateOpen te p.pkt.hdr then pumpTeGo c t n (sendPkt c t q k i s)
        else s
      | _, _ => s

/-- Packets a TE has still to send. -/
def unsentOf (te : Te) : Nat :=
  (te.queue.map fun q => (q.pkts.filter fun p => p.state == .unsent).length).foldl (· + ·) 0

def pumpTe (c t : Nat) (s : State) : State := pumpTeGo c t (3 * unsentOf (s.te c t)) s

/-- Every TE of a cluster sends what it can. -/
def pumpCluster (c : Nat) (s : State) : State := forEach (List.range 8) (pumpTe c) s

/-! ### Starting commands (R113, R359, R360, R363) -/

/-- Started, and its translations not all there. -/
def TeCmd.translating (q : TeCmd) : Bool :=
  match q.phase with
  | .walking _ _ => true
  | .pageWait _ _ _ => true
  | .ats _ _ _ => true
  | .pri _ _ _ => true
  | .queued => false
  | .armed _ => false
  | .running => false
  | .done _ => false

/-- Do two commands come from one ring, or from one core and queue? -/
def sameSource (a b : Origin) : Bool :=
  match a, b with
  | .ring p r _ _, .ring p' r' _ _ => p == p' && r == r'
  | .core c k q _ _ _, .core c' k' q' _ _ _ => c == c' && k == k' && q == q'
  | .sill m, .sill m' => m == m'
  | .ring _ _ _ _, .core _ _ _ _ _ _ => false
  | .ring _ _ _ _, .sill _ => false
  | .core _ _ _ _ _ _, .ring _ _ _ _ => false
  | .core _ _ _ _ _ _, .sill _ => false
  | .sill _, .ring _ _ _ _ => false
  | .sill _, .core _ _ _ _ _ _ => false

/-- Commands ahead of one in its queue. -/
def aheadOf (te : Te) (id : Nat) : List TeCmd := te.queue.takeWhile fun q => q.id != id

/-- Does a command read local memory? -/
def readsLocal (e : List Byte) : Bool := (rangesOf e).any fun g => !g.write && g.space != 4

/-- May the command start (R112, R113, R360, R372, R451)? -/
def mayStart (s : State) (te : Te) (q : TeCmd) : Bool :=
  let ahead := aheadOf te q.id
  !te.stalled && tier0Settled s && q.mx == 0 && !ahead.any TeCmd.translating &&
  (!readsLocal q.entry ||
    !ahead.any fun a => a.phase == .running && (entOpcode a.entry == ocGet || entOpcode a.entry == ocAtomic)) &&
  (!entOrder q.entry || !ahead.any fun a => sameSource a.origin q.origin)

/-- The translations a command uses, kept for its running (R48, R49). -/
def keepTrans (s : State) (c : Nat) (q : TeCmd) : List Trans :=
  (((rangesOf q.entry).filter fun g => g.space == 2).flatMap fun g =>
    (pagesOf g.addr g.len).filterMap (transOf s c q q.das)).eraseDups

/-- Go on with a started command: run it, or wait for what its checks lack (R44 to R48, R53, R265). -/
def proceed (c t id : Nat) (s : State) : State :=
  match (s.te c t).cmd id with
  | none => s
  | some q =>
    match chkCmd s c q with
    | .fail st a d o => failCmd c t id st a d o s
    | .walk das page a o =>
      countEpb c 27 1 (s.modTe c t (Te.modCmd id fun q =>
        { q with phase := .walking das page, failAddr := a, failOff := o }))
    | .ats page w a o =>
      (s.emit (.atsRequest q.hport q.pasid page w)).modTe c t (Te.modCmd id fun q =>
        { q with phase := .ats q.hport page w, failAddr := a, failOff := o })
    | .ok =>
      let ts := keepTrans s c q
      let run := fun (q : TeCmd) => { q with phase := .running, trans := ts, failAddr := 0, failDpa := 0, failOff := 0 }
      let s := s.modTe c t (Te.modCmd id run)
      let q := run q
      let o := entOpcode q.entry
      if o == 0 then endCmd c t id stOk s
      else if o == ocCopy || o == ocVerify then runLocal c t q s
      else if o == ocPrefetch then runPrefetch c t q s
      else if o == ocCommit then advanceCommitGo c t id (commitCount q.entry + 1) s
      else pumpTe c t (runRemote c t q s)

/-- Start one command, with what host memory will return to it; a STATE_REJECT counts nowhere (R363, R364). -/
def startCmd (c t : Nat) (q : TeCmd) (host : List Byte) (s : State) : State :=
  let data := match q.origin with | .sill _ => q.data | .ring _ _ _ _ => host | .core _ _ _ _ _ _ => host
  let s := s.modTe c t (Te.modCmd q.id fun q => { q with started := true, data := data })
  let third := match q.origin with
    | .sill _ => none
    | .ring _ _ _ _ => dataCheck3 s q.entry
    | .core _ _ _ _ _ _ => dataCheck3 s q.entry
  let verdict := q.verdict <|> third
  let s := if verdict = some stStateReject then s else countEpb c 22 1 s
  match verdict with
  | some st => failCmd c t q.id st q.failAddr q.failDpa q.failOff s
  | none => proceed c t q.id (s.modTe c t (Te.modCmd q.id fun q => { q with reserved := entMeasure q.entry }))

/-- The next command of a TE that has not been started. -/
def nextCmd (te : Te) : Option TeCmd := te.queue.find? fun q => !q.started && (match q.phase with
  | .queued => true
  | .armed _ => true
  | .walking _ _ => false
  | .pageWait _ _ _ => false
  | .ats _ _ _ => false
  | .pri _ _ _ => false
  | .running => false
  | .done _ => false)

/-- Start the next command of a TE if it satisfies `ok` and may start. -/
def startIf (ok : TeCmd → Bool) (c t : Nat) (host : List Byte) (s : State) : State :=
  match nextCmd (s.te c t) with
  | none => s
  | some q =>
    if q.phase == .queued && ok q && mayStart s (s.te c t) q then startCmd c t q host s else s

/-- Start the next command if it is armed and its token allows (R169). -/
def startArmed (c t : Nat) (host : List Byte) (s : State) : State :=
  match nextCmd (s.te c t) with
  | none => s
  | some q =>
    match q.phase, q.origin with
    | .armed tok, .core cc k _ _ _ _ =>
      if SMap.get 0 (s.core cc k).tokens tok = 0 || !mayStart s (s.te c t) q then s
      else
        let s := s.modCore cc k fun x => { x with tokens := SMap.upd 0 x.tokens tok (· - 1) }
        startCmd c t q host s
    | _, _ => s

/-! ### The end of a command (R113, R199, R372) -/

/-- Is a status one a TE faults on (R372)? -/
def faulting (st : Nat) : Bool := st != stOk && st != stStateReject && st != stTornDown

/-- The TE_FAULT record of a command (R375). -/
def teFaultRecord (s : State) (c t : Nat) (q : TeCmd) (st : Nat) : List Byte :=
  let e := q.entry
  let body := leBytes 1 (entOpcode e) ++ leBytes 1 q.das ++ leBytes 1 (entWgen e) ++ zeros 1 ++ leBytes 2 (entStep e)
    ++ zeros 2 ++ leBytes 8 q.failAddr ++ leBytes 8 q.failDpa ++ leBytes 8 q.failOff
  match q.origin with
  | .ring p r i _ => mkRecord s 0x01 st 0 p (c + 16 * t) (leBytes 4 r ++ leBytes 4 i) body
  | .core cc k n x _ _ =>
    let cnt := SMap.get 0 (s.core cc k).cc (if x then 8 else n)
    mkRecord s 0x01 st 1 0 (c + 16 * t) (leBytes 4 cnt ++ leBytes 2 (entTag e)) body
  | .sill _ => mkRecord s 0x01 st 5 0 (c + 16 * t) [] body

/-- The port a command's fault record goes to (R373). -/
def faultPort (s : State) (q : TeCmd) : Nat :=
  match q.origin with
  | .ring p _ _ _ => p
  | .core _ _ _ _ _ _ => s.mainPort
  | .sill _ => s.mainPort

/-- Count a core's completion, unless the core has been started again since; its wake event is sent either way (R199,
R200, R201). -/
def coreCompletion (cc k n : Nat) (x wake : Bool) (gen st : Nat) (s : State) : State :=
  let i := if x then 8 else n
  let s := if (s.core cc k).gen != gen then s
    else
      let s := if st = stOk then s else countCore cc k 37 1 s
      s.modCore cc k fun y =>
        let w := SMap.get 0 y.teErr i
        { y with cc := SMap.upd 0 y.cc i (fun v => (v + 1) % 2 ^ 32),
                 teErr := if st = stOk then y.teErr
                   else SMap.set 0 y.teErr i (if w = 0 then st else if bit w 8 then w else w + 256) }
  if wake then wakeCore cc k s else s

/-- A TE faults: the slot keeps the first record, and the TE drops every translation it holds (R51, R372). -/
def stallTe (c t : Nat) (fr : List Byte) : State → State :=
  State.modTe c t fun te =>
    { te with fault := if te.fault.isEmpty then fr else te.fault,
              queue := te.queue.map fun q => { q with trans := [] } }

/-- Report the command at the head of a queue, once it has ended (R113, R199, R361, R372). -/
def reportHead (c t : Nat) (s : State) : State :=
  match (s.te c t).queue with
  | [] => s
  | q :: rest =>
    match q.phase with
    | .done st =>
      let s := if st = stTimeout then countEpb c 26 1 s else s
      let s := s.modTe c t fun te => { te with queue := rest }
      let s := match q.origin with
        | .ring p r i g => completeRing p r q.cq q.pasid i g q.entry st q.result q.detail s
        | .core cc k n x w g => coreCompletion cc k n x w g st s
        | .sill m => moveTraffic m st s
      if faulting st then
        let fr := teFaultRecord s c t q st
        stallTe c t (fitBytes 64 fr) (faultRecord (faultPort s q) fr s)
      else s
    | .queued => s
    | .armed _ => s
    | .walking _ _ => s
    | .pageWait _ _ _ => s
    | .ats _ _ _ => s
    | .pri _ _ _ => s
    | .running => s

/-! ### Responses (R88, R89, R92, R106, R108) -/

/-- The outstanding packet a response answers: its command and place. -/
def answered (s : State) (c tid op : Nat) : Option (TeCmd × Nat × CmdPkt) :=
  match slotOwner s c (tidTe tid) (tidSlot tid) with
  | none => none
  | some (id, k) =>
    ((s.te c (tidTe tid)).cmd id).bind fun q => (q.pkts[k]?).bind fun p =>
      if p.state == .outstanding (tidSlot tid) && p.pkt.hdr.op.toNat + 0x80 == op then some (q, k, p) else none

/-- Space and address a response's data goes to. -/
def landSpace (q : TeCmd) : Nat := if entOpcode q.entry == ocAtomic then entSrcSpace q.entry else entDstSpace q.entry
def landAddr (q : TeCmd) (off : Nat) : Nat := (if entOpcode q.entry == ocAtomic then entSrc q.entry else entDst q.entry) + off

/-- Write what a response brings to the command's local range; the answer is the packet's status (R88, R89, R380, R406). -/
def landData (c : Nat) (q : TeCmd) (off : Nat) (bs : List Byte) (s : State) : Nat × State :=
  match q.origin with
  | .sill m =>
    match s.sill.moves.find? fun v => v.id == m with
    | none => (stOk, s)
    | some v =>
      let a := frameAddr v.frame + off
      if devBad s false a bs.length then (stUncorrected, ueNotes false (pieces a bs.length) s)
      else (stOk, countGranules 14 a bs.length (devWrite a (xorBytes (devRead s a bs.length) bs) s))
  | .ring _ _ _ _ => land q off bs s
  | .core _ _ _ _ _ _ => land q off bs s
where
  land (q : TeCmd) (off : Nat) (bs : List Byte) (s : State) : Nat × State :=
    let space := landSpace q
    let addr := landAddr q off
    if space = 3 && !hostReach s q.hport q.hgen then (stTimeout, s)
    else
      let gs := segsOf s c q space addr bs.length
      match firstBad s c true 0 gs with
      | some _ => (stUncorrected, badNotes true gs s)
      | none => (stOk, writeSegs c q gs bs s)

/-- The first host page of a response's data whose translation an invalidation has taken (R53, R55). -/
def landPage (s : State) (q : TeCmd) (off n : Nat) : Option Nat :=
  if landSpace q = 3 && hostReach s q.hport q.hgen then
    (hostPages (landAddr q off) n).find? fun p => !hostPageOk s q.hport q.pasid p true
  else none

/-- Where the packet of a TID slot stands. -/
def setSlotPkt (c t i : Nat) (st : PktState) (s : State) : State :=
  match slotOwner s c t i with
  | none => s
  | some (id, k) =>
    s.modTe c t (Te.modCmd id fun q => { q with pkts := modAt (fun p => { p with state := st }) q.pkts k })

/-- What the translations of a response's data come to. -/
inductive LandStep where
  | go (s : State)
  | fail (status : Nat) (s : State)
  /-- it waits for a context page -/
  | hold (s : State)

/-- A translation found for a page the data goes to: kept, and checked (R47). -/
def landLeaf (c t id : Nat) (tr : Trans) (s : State) : LandStep :=
  if bit tr.entry 3 then
    .go ((cacheTrans c tr s).modTe c t (Te.modCmd id fun q => { q with trans := tr :: q.trans }))
  else .fail stPermission s

/-- Translate one page again: its TE dropped the translations it held as it stalled (R51). -/
def landWalk (c t : Nat) (q : TeCmd) (page : Nat) (s : State) : LandStep :=
  match transOf s c q q.das page with
  | some _ => .go s
  | none =>
    let s := wakeWalk s q.das page
    match walkEnd s q.das page with
    | .leaf tr => landLeaf c t q.id tr s
    | .bad st a => .fail st (if st = stUncorrected then ueNote a s else s)
    | .away cpn _ =>
      match pageVerdict s cpn with
      | some st => .fail st (noteLost cpn s)
      | none =>
        let s := demandPage cpn s
        match walkEnd s q.das page with
        | .leaf tr => landLeaf c t q.id tr s
        | .bad _ _ => .hold s
        | .away _ _ => .hold s

def landWalks (c t id : Nat) : List Nat → State → LandStep
  | [], s => .go s
  | p :: ps, s =>
    match (s.te c t).cmd id with
    | none => .go s
    | some q =>
      match landWalk c t q p s with
      | .go s => landWalks c t id ps s
      | .fail st s => .fail st s
      | .hold s => .hold s

/-- Land a response's data, or wait for the translation it needs; the packet ends once it has landed. -/
def landPkt (c t i : Nat) (q : TeCmd) (off : Nat) (bs : List Byte) (s : State) : State :=
  match landPage s q off bs.length with
  | some page => (setSlotPkt c t i (.landing i bs false) s).emit (.atsRequest q.hport q.pasid page true)
  | none =>
    let pages := if landSpace q = 2 then (match q.origin with
      | .sill _ => []
      | .ring _ _ _ _ => pagesOf (landAddr q off) bs.length
      | .core _ _ _ _ _ _ => pagesOf (landAddr q off) bs.length) else []
    match landWalks c t q.id pages s with
    | .go s =>
      let (st, s) := landData c (((s.te c t).cmd q.id).getD q) off bs s
      packetDone c t i st .free s
    | .fail st s => packetDone c t i st .free s
    | .hold s => setSlotPkt c t i (.landing i bs false) s

/-- Packets of a TE that are answered and wait to land: the command, and the packet. -/
def landings (te : Te) : List (TeCmd × CmdPkt) :=
  te.queue.flatMap fun q => (q.pkts.filter fun p => match p.state with
    | .landing _ _ _ => true
    | .unsent => false
    | .outstanding _ => false
    | .backoff _ => false
    | .done _ => false).map fun p => (q, p)

/-- Try again to land a packet that waits, and send what may now go. -/
def reland (c t : Nat) (w : TeCmd × CmdPkt) (s : State) : State :=
  match w.2.state with
  | .landing i bs _ =>
    let op := w.2.pkt.hdr.op.toNat
    pumpTe c t (landPkt c t i w.1 (if op == opLoad then w.2.off else 0) bs s)
  | .unsent => s
  | .outstanding _ => s
  | .backoff _ => s
  | .done _ => s

/-- After a page has come in: data that waits for it lands. -/
def wakeLandings (s : State) : State :=
  forEach (List.range 16) (fun c s => forEach (List.range 8) (fun t s =>
    forEach ((landings (s.te c t)).filter fun w => landSpace w.1 == 2) (reland c t) s) s) s

/-- A response of OK: its data, if it carries any (R88, R89, R92). -/
def goodResponse (c tid : Nat) (q : TeCmd) (p : CmdPkt) (r : Packet) (s : State) : State :=
  let t := tidTe tid
  let i := tidSlot tid
  let op := p.pkt.hdr.op.toNat
  let want := if op == opLoad then p.pkt.hdr.cnt.toNat else if op == opFetch || op == opCswap then 1 else 0
  if r.hdr.len.toNat != want || !r.trailerOk then packetDone c t i stCheckFailed .free s
  else if op == opLoad then landPkt c t i q p.off r.payload s
  else if op == opFetch || op == opCswap then
    let old := leAt r.payload 0 8
    let s := s.modTe c t (Te.modCmd q.id fun q =>
      { q with result := old, detail := if op == opCswap then r.hdr.cnt.toNat % 2 else 0 })
    landPkt c t i q 0 (leBytes 8 old) s
  else packetDone c t i stOk .free s

/-- One response at its endpoint (R106 to R108); one with a reserved bit set completes MALFORMED (R12). The HOLD_FULL that
ends a command is the one on its 24th retry, as R106 has it: the 25th answer, where R110 and R231 say the 24th
(assumption 70). -/
def takeResponse (c : Nat) (r : Packet) (s : State) : State :=
  let s := wakeDomain (endpointDom c) s
  let tid := r.hdr.tid.toNat
  let t := tidTe tid
  match answered s c tid r.hdr.op.toNat with
  | none => s.modEpb c fun b => { b with lateResp := cnt32 b.lateResp }
  | some (q, k, p) =>
    let st := r.hdr.attr.toNat
    let s :=
      if r.hdr.rsv0 != 0 || r.hdr.rsv1 != 0 then packetDone c t (tidSlot tid) stMalformed .free s
      else if st = stHoldFull && p.tries < 24 then
        s.modTe c t (Te.modCmd q.id fun q =>
          { q with pkts := modAt (fun p => { p with tries := p.tries + 1, state := .backoff (tidSlot tid) }) q.pkts k })
      else if st = stOk then goodResponse c tid q p r s
      else packetDone c t (tidSlot tid) st .free s
    pumpTe c t s

/-- Send a packet again after its backoff, with the epoch now current (R106). -/
def resendPkt (c t i : Nat) (s : State) : State :=
  match slotOwner s c t i, slotPkt s c t i with
  | some (id, k), some p =>
    if p.state == .backoff i then
      let s := s.modTe c t (Te.modCmd id fun q =>
        { q with pkts := modAt (fun p => { p with state := .outstanding i }) q.pkts k })
      inject c p.pkt (countEpb c 25 1 s)
    else s
  | _, _ => s

/-- A packet's remote-operation timer expires; its slot is quarantined (R84, R107). -/
def timeoutPkt (c t i : Nat) (s : State) : State :=
  match slotPkt s c t i with
  | some p =>
    if p.state == .outstanding i then pumpTe c t (packetEnd .lost c t i stTimeout .quarantined s) else s
  | none => s

end Sys2Proof.Machine
end

