-- ==== Sys2Proof/Machine/EpbOps.lean ====
section
/-! DEFINITION. The end-point block: Lens, streams and the hold buffer, atomics and reductions, Accord, and the collision
queue (02, R58 to R72; 03, R85 to R101; 04, R115 to R137; 08, R229 to R231). -/
namespace Sys2Proof.Machine

/-! ### The receive buffer (R137, R303) -/

def collideFull (b : Epb) : Bool := 256 ≤ b.collide.length

/-- Take the head of the receive buffer: its credit returns, unless R137 withholds it. -/
def dropHead (e : Nat) (p : Packet) (s : State) : State :=
  let v := p.hdr.vc.toNat
  let n := cellsOf p
  (cmapAdvance (22 + e) s).modEpb e fun b =>
    let keep := collideFull b && 1 ≤ v && v ≤ 3
    { b with rx := b.rx.drop 1, rxCells := SMap.upd 0 b.rxCells v (· - n),
             withheld := if keep then SMap.upd 0 b.withheld v (· + n) else b.withheld }

/-- The package answers TORN_DOWN to every request (R87). -/
def tornDown (s : State) : Bool := s.glob.state == .fenced || s.glob.state == .clearing

/-- Answer a request (R78), and count the answer (R468). -/
def answerWith (e : Nat) (h : Header) (st cnt : Nat) (payload : List Byte) (s : State) : State :=
  let s := countEpb e 1 1 s
  let s := if st = stHoldFull then countEpb e 16 1 s
    else if st = stOk then s
    else countEpb e 20 1 (if st = stWindowStale then countEpb e 21 1 s else s)
  inject e (respond h st cnt payload) s

def answer (e : Nat) (h : Header) (st : Nat) : State → State := answerWith e h st 0 []

/-- Is a packet nothing an endpoint serves: no response and no request a TE can send (R79, R85)? -/
def strayOp (op : Nat) : Bool := !(isRequest op && !isMgmtOp op) && !(isResponse op && !isMgmtOp (op - 0x80))

/-- Deal with heads of the receive buffer that no operation serves: a bad header CRC is discarded and counted, an
undefined request is answered MALFORMED, an undefined response is late (R85, R108). -/
def flushStray (e : Nat) : Nat → State → State
  | 0, s => s
  | k + 1, s =>
    match (s.epb e).rx with
    | [] => s
    | p :: _ =>
      if !p.hdr.hcrcOk then
        flushStray e k ((dropHead e p s).modEpb e fun b => { b with hdrDrop := cnt32 b.hdrDrop })
      else if strayOp p.hdr.op.toNat then
        let s := dropHead e p s
        if isResp p.hdr then flushStray e k (s.modEpb e fun b => { b with lateResp := cnt32 b.lateResp })
        else flushStray e k (answer e p.hdr (if tornDown s then stTornDown else stMalformed) (countEpb e 0 1 s))
      else s

/-! ### Lens (R58 to R64) -/

def LensDesc.at_w (s : State) (e w : Nat) : LensDesc := SMap.get LensDesc.reset (s.epb e).lens w

/-- Bytes an operation addresses at its target (check 7 of R63). -/
def addressed (h : Header) : Nat :=
  let op := h.op.toNat
  if op == opLoad then 16 * h.cnt.toNat
  else if op == opOreduce || op == opLse then rootLen h.attr.toNat h.cnt.toNat h.len.toNat
  else h.payLen

/-- Is the permission bit of the operation's class set (check 5)? -/
def classBit (d : LensDesc) (op : Nat) : Bool :=
  if op == opLoad then d.rd
  else if op == opStore || op == opMcast then d.wr
  else if op == opFetch || op == opCswap then d.at_
  else d.re

/-- Checks 3 to 7 of R63. -/
def lensVerdict (d : LensDesc) (h : Header) : Option Nat :=
  if h.wgen.toNat != d.wgen then some stWindowStale
  else if !d.valid || d.part != h.part.toNat then some stPermission
  else if !classBit d h.op.toNat then some stPermission
  else if d.ownOnly && h.op.toNat != opLoad && h.snode.toNat != d.owner then some stPermission
  else if 2 ^ d.size < h.pos + addressed h then some stBounds
  else none

/-- What a paged window's entry gives (R61): from the cache, or from the table in tier 0. -/
def lensEntry (s : State) (e : Nat) (d : LensDesc) (w page : Nat) : WalkEnd :=
  match (s.epb e).cache.find? fun x => x.window == w && x.page == page with
  | some x => .leaf { das := 0, page := page, count := 1, entry := x.entry }
  | none =>
    let a := d.base + 8 * page
    if devBad s false a 8 then .bad stUncorrected a else leafEnd s true 0 page (leVal (devRead s a 8)) a

/-- The target bytes of a request, or why it has none yet (check 8). -/
inductive Target where
  | segs (gs : List Seg)
  | fail (status dpa : Nat)
  | wait (cpn : Nat)
  deriving DecidableEq, Repr

/-- The pages of a window range, in ascending order (R61, R64). -/
def pagedTarget (s : State) (e : Nat) (d : LensDesc) (w pos len : Nat) : List Nat → Target
  | [] => .segs []
  | p :: ps =>
    match lensEntry s e d w p with
    | .bad st a => .fail st a
    | .away cpn _ => .wait cpn
    | .leaf t =>
      match pagedTarget s e d w pos len ps with
      | .segs gs =>
        let lo := max pos (p * pageBytes)
        let hi := min (pos + len) ((p + 1) * pageBytes)
        .segs ({ pool := false, addr := t.dpa lo, len := hi - lo } :: gs)
      | .fail st a => .fail st a
      | .wait cpn => .wait cpn

/-- The target of a window range (R61). -/
def windowTarget (s : State) (e : Nat) (d : LensDesc) (w pos len : Nat) : Target :=
  if len = 0 then .segs []
  else if d.paged then pagedTarget s e d w pos len (pagesOf pos len)
  else .segs [{ pool := d.pool, addr := d.base + pos, len := len }]

/-- Keep the entries a range used in the cache of 256 (R61). -/
def cachePages (e : Nat) (d : LensDesc) (w pos len : Nat) (s : State) : State :=
  if !d.paged then s else
  forEach (pagesOf pos len) (fun p s =>
    if (s.epb e).cache.any fun x => x.window == w && x.page == p then s
    else match lensEntry s e d w p with
      | .leaf t =>
        countEpb e 19 1 ((wakeStacks (d.base + 8 * p) 8 s).modEpb e fun b =>
          { b with cache := ({ window := w, page := p, entry := t.entry } :: b.cache).take 256 })
      | .away _ _ => s
      | .bad _ _ => s) s

/-- The port whose fault ring takes a window's records (R373). -/
def windowPort (s : State) (e w : Nat) : Nat :=
  let u := SMap.get 0 (s.epb e).byUpdate w
  let r := SMap.get 0 (s.epb e).byWrite w
  if u != 0 then u - 1 else if r != 0 then r - 1 else 0

/-! ### Same-granule service (R135 to R137) -/

/-- Granules of a list of segments. -/
def granulesOf (gs : List Seg) : List (Bool × Nat) :=
  gs.flatMap fun g => (pieces g.addr g.len).map fun p => (g.pool, p.1 / 64)

/-- Is a write to one of the granules in progress, or waiting? -/
def granuleBusy (s : State) (e : Nat) (gs : List Seg) : Bool :=
  let l := granulesOf gs
  (s.epb e).busy.any (fun g => 3 * s.now < g.until3 && l.contains (g.pool, g.granule)) ||
  (s.epb e).collide.any fun c => (granulesOf c.segs).any l.contains

/-- Mark the granules of an applied write: 4 or 6 endpoint cycles of two thirds of a nanosecond (R135). -/
def markBusy (e op : Nat) (gs : List Seg) (s : State) : State :=
  let until3 := 3 * s.now + (if op == opFetch || op == opCswap then 12 else 8)
  let l := granulesOf gs
  s.modEpb e fun b =>
    { b with busy := (b.busy.filter fun g => 3 * s.now < g.until3 && !l.contains (g.pool, g.granule))
                     ++ l.map fun g => { pool := g.1, granule := g.2, until3 := until3 } }

/-- Put a checked write in the collision queue (R137). -/
def collideWith (e : Nat) (c : Collided) (s : State) : State :=
  s.modEpb e fun b =>
    let b' := { b with collide := b.collide ++ [c] }
    if collideFull b' && !collideFull b then { b' with fullSince := 1 + s.now } else b'

/-- After the queue has ceased to be full: the stall is counted and the credits withheld go back (R137). -/
def unstall (e : Nat) (s : State) : State :=
  let b := s.epb e
  if collideFull b || b.fullSince = 0 then s
  else
    let cycles := (s.now + 1 - b.fullSince) * 3 / 2
    countEpb e 17 cycles (s.modEpb e fun b =>
      { b with fullSince := 0, withheld := [], collideStall := min 0xFFFFFFFF (b.collideStall + cycles) })

/-! ### Reading and writing the target -/

/-- Cores of the cluster whose window watch names the window take a wake event (R204, R230). -/
def wakeWatchers (e w : Nat) (s : State) : State :=
  forEach (List.range 8) (fun k s => if (s.core e k).watch == some w then wakeCore e k s else s) s

/-- What reading or writing the target leaves behind: scope records, corrections and counts (R132, R148, R253, R468). -/
def noteSegs (write : Bool) (e : Nat) (rel : Option (Nat × Nat)) (gs : List Seg) (s : State) : State :=
  forEach gs (fun g s =>
    if g.pool then (if write then noteScope e g.addr g.len rel s else (wakeDomain (poolDom e) s).modCluster e (Cluster.mend g.addr g.len))
    else if write then countGranules 1 g.addr g.len s
    else countGranules 0 g.addr g.len (correctRead g.addr g.len s)) s

/-- Write the target; a flagged payload acts as a release of PACKAGE scope by the EPB, which is agent 8 (R131, R132).
All granules are written in one step (assumption 88). -/
def targetWrite (e : Nat) (rel : Option (Nat × Nat)) (gs : List Seg) (bs : List Byte) (s : State) : State :=
  countEpb e 13 (cdiv bs.length 16) (noteSegs true e rel gs (segsWrite e gs bs s))

/-- Apply a store's payload: its status, and the state after it (R121, R253). -/
def applyStore (e : Nat) (p : Packet) (gs : List Seg) (s : State) : Nat × State :=
  let flagged := p.hdr.f = 1
  if p.hdr.len = 0 then (stOk, s)
  else if segsBad s e true gs then (stUncorrected, segsNote true gs s)
  else
    let s := targetWrite e (if flagged then some (8, 2) else none) gs p.payload s
    let s := markBusy e p.hdr.op.toNat gs s
    (stOk, if flagged then wakeWatchers e p.hdr.window s else s)

/-! ### Streams (R115 to R126) -/

def recOf (s : State) (e : Nat) (h : Header) : Option StreamRec :=
  (s.epb e).streams.find? fun r => r.snode == h.snode.toNat && r.stag == h.stag.toNat

/-- Does a record need to exist (04, the target side)? -/
def StreamRec.needed (r : StreamRec) : Bool := r.landed != 0 || r.held.isSome || r.broken

/-- Store a stream's record, or drop it when nothing needs it. -/
def putRec (e : Nat) (r : StreamRec) (s : State) : State :=
  s.modEpb e fun b =>
    let rest := b.streams.filter fun x => !(x.snode == r.snode && x.stag == r.stag)
    { b with streams := if r.needed then rest ++ [r] else rest }

/-- Cells of the hold buffer a packet takes. -/
def holdCells (p : Packet) : Nat := cdiv p.hdr.payLen 256

def heldPkts (b : Epb) : List Packet := b.streams.filterMap fun r => r.held.map (·.pkt)

/-- Has the hold buffer an entry and the cells (R121)? -/
def holdRoom (b : Epb) (p : Packet) : Bool :=
  (heldPkts b).length < 2048 && ((heldPkts b).map holdCells).foldl (· + ·) 0 + holdCells p ≤ 4096

/-- STREAM_BREAK (R123). -/
def streamBreakRecord (e st : Nat) (h : Header) (s : State) : State :=
  faultRecord (windowPort s e h.window) (mkRecord s 0x04 st 2 0 e []
    (leBytes 2 h.snode.toNat ++ leBytes 1 h.stag.toNat ++ leBytes 1 st ++ leBytes 2 h.window)) s

/-- Break a stream: its held flag is answered STREAM_BROKEN, and the break recorded (R123). -/
def breakStream (e st : Nat) (h : Header) (r : StreamRec) (s : State) : State :=
  let s := match r.held with
    | some x => answer e x.pkt.hdr stStreamBroken s
    | none => s
  let s := putRec e { r with held := none, broken := true } s
  streamBreakRecord e st h (s.modEpb e fun b => { b with brokenChecks := cnt16 b.brokenChecks })

/-- A carry closes its stores and addresses no window (R91). -/
def isCarry (h : Header) : Bool := h.op.toNat == opCarry || (h.op.toNat == opMcast && h.len = 0)

/-- A store, flag or carry answered OK. -/
def answerStored (e : Nat) (h : Header) (s : State) : State :=
  let s := if isCarry h then s else countEpb e (if h.f = 1 then 4 else 3) 1 s
  answer e h stOk s

def newRec (h : Header) : StreamRec :=
  { snode := h.snode.toNat, stag := h.stag.toNat, landed := 0, held := none, broken := false }

/-- Release the held flag of a stream (R121). Behind a write to one of its granules it leaves the hold buffer for the
collision queue, and while that is full it stays where it is (R137, R140). -/
def releaseHeld (e : Nat) (r : StreamRec) (s : State) : State :=
  match r.held with
  | none => s
  | some x =>
    let r := { r with held := none }
    if granuleBusy s e x.segs then (if collideFull (s.epb e) then s else collideWith e x (putRec e r s)) else
    let (st, s) := applyStore e x.pkt x.segs s
    if st = stOk then answerStored e x.pkt.hdr (putRec e { r with landed := r.landed - x.pkt.hdr.cnt.toNat } s)
    else breakStream e st x.pkt.hdr r (answer e x.pkt.hdr st s)

/-- A held flag whose predecessors have landed (R121). -/
def StreamRec.due (r : StreamRec) : Bool :=
  match r.held with
  | some x => x.pkt.hdr.cnt.toNat ≤ r.landed
  | none => false

/-- Held flags that a full collision queue kept back are released as it empties. -/
def releaseDue (e : Nat) (s : State) : State := forEach ((s.epb e).streams.filter (·.due)) (releaseHeld e) s

/-- Answer HOLD_FULL under R121, which its register counts. -/
def holdFull (e : Nat) (h : Header) (s : State) : State :=
  answer e h stHoldFull (s.modEpb e fun b => { b with holdFull := cnt32 b.holdFull })

/-- The stream procedure of R121 for a packet that has passed its checks. -/
def streamStage (e : Nat) (p : Packet) (gs : List Seg) (s : State) : State :=
  let h := p.hdr
  let r := (recOf s e h).getD (newRec h)
  if r.broken then answer e h stStreamBroken s
  else if h.f = 0 then
    let (st, s) := applyStore e p gs s
    if st = stOk then
      let r := { r with landed := r.landed + 1 }
      let s := answerStored e h (putRec e r s)
      match r.held with
      | some x => if x.pkt.hdr.cnt.toNat ≤ r.landed then releaseHeld e r s else s
      | none => s
    else breakStream e st h r (answer e h st s)
  else if r.held.isSome then holdFull e h s
  else if h.cnt.toNat ≤ r.landed then
    let (st, s) := applyStore e p gs s
    if st = stOk then answerStored e h (putRec e { r with landed := r.landed - h.cnt.toNat } s)
    else breakStream e st h r (answer e h st s)
  else if holdRoom (s.epb e) p then
    countEpb e 15 1 (putRec e { r with held := some { pkt := p, segs := gs } } s)
  else holdFull e h s

/-! ### Atomics and reductions (R92 to R94) -/

/-- The operation's old value and the new one, on little-endian words of the operand size. -/
def atomicNew (h : Header) (old : Nat) (payload : List Byte) : Nat × Nat :=
  let z := typeSize (h.attr.toNat % 16)
  if h.op.toNat == opCswap then
    if old = leAt payload 0 z then (leAt payload 8 z, 1) else (old, 0)
  else (attrOp h.attr.toNat old (leAt payload 0 z), 0)

/-- The first `n` bytes of a list of segments. -/
def segsTake : Nat → List Seg → List Seg
  | _, [] => []
  | n, g :: gs => if n = 0 then [] else { g with len := min n g.len } :: segsTake (n - g.len) gs

/-- Apply a FETCH_OP or CSWAP and answer it (R92, R93). -/
def atomicStage (e : Nat) (p : Packet) (gs : List Seg) (s : State) : State :=
  let h := p.hdr
  let z := typeSize (h.attr.toNat % 16)
  let gs := segsTake z gs
  if segsBad s e false gs || segsBad s e true gs then answer e h stUncorrected (segsNote false gs s)
  else
    let old := leVal (segsRead s e gs)
    let r := atomicNew h old p.payload
    let swap := h.op.toNat == opCswap
    let s := countEpb e 14 1 (noteSegs false e none gs (segsTouch gs s))
    let s := if swap && r.2 = 0 then s else targetWrite e none gs (leBytes z r.1) s
    let s := countEpb e (if swap then 6 else 5) 1 (markBusy e h.op.toNat gs s)
    answerWith e h stOk r.2 (leBytes 8 old ++ zeros 8) s

/-- Apply a REDUCE or WREDUCE and answer it (R94). -/
def reduceStage (e : Nat) (p : Packet) (gs : List Seg) (s : State) : State :=
  let h := p.hdr
  if segsBad s e false gs || segsBad s e true gs then answer e h stUncorrected (segsNote false gs s)
  else
    let old := segsRead s e gs
    let s := countEpb e 14 h.len.toNat (noteSegs false e none gs (segsTouch gs s))
    let s := targetWrite e none gs (reduceAll h.attr.toNat old p.payload) s
    answer e h stOk (countEpb e (if h.op.toNat == opWreduce then 8 else 7) 1 (markBusy e h.op.toNat gs s))

/-- Serve a LOAD whose checks have passed (R88), all its granules in one step (assumption 88). -/
def loadStage (e : Nat) (p : Packet) (gs : List Seg) (s : State) : State :=
  if segsBad s e false gs then answer e p.hdr stUncorrected (segsNote false gs s)
  else
    let bs := segsRead s e gs
    let s := countEpb e 14 p.hdr.cnt.toNat (noteSegs false e none gs (segsTouch gs s))
    answerWith e p.hdr stOk 0 bs (countEpb e 2 1 s)

/-! ### Accord (R96 to R101, R229 to R231) -/

/-- The session a header names, if it is open. -/
def Session.named (w pos step : Nat) (x : Session) : Bool := x.window == w && x.pos == pos && x.step == step

def openSessions (b : Epb) : List Session := b.sessions.filter (·.root.isNone)

/-- Staged partial payload in bytes (R99). -/
def stagedBytes (b : Epb) : Nat :=
  ((b.sessions.flatMap (·.held)).map (·.payload.length)).foldl (· + ·) 0

/-- Do the leaf ranges of two nodes overlap (R97)? -/
def leavesMeet (a b : Nat × Nat) : Bool :=
  !disjoint (a.2 * 2 ^ a.1) (2 ^ a.1) (b.2 * 2 ^ b.1) (2 ^ b.1)

/-- Combine a node upwards while its sibling is held; the number of combinations, and the session (R98). -/
def climb : Nat → Session → Partial → Nat → Nat × Session
  | 0, x, p, n => (n, { x with held := x.held ++ [p] })
  | k + 1, x, p, n =>
    if p.level = x.cnt % 16 then (n, { x with held := [], root := some p.payload })
    else
      let sib := if p.index % 2 = 0 then p.index + 1 else p.index - 1
      match x.held.find? fun y => y.level == p.level && y.index == sib with
      | none => (n, { x with held := x.held ++ [p] })
      | some y =>
        let l := if p.index % 2 = 0 then p.payload else y.payload
        let r := if p.index % 2 = 0 then y.payload else p.payload
        let held := x.held.filter fun z => !(z.level == y.level && z.index == y.index)
        climb k { x with held := held }
          { level := p.level + 1, index := p.index / 2, payload := accordCombine x.attr x.cnt l r } (n + 1)

/-- A new session of a partial. -/
def newSession (d : LensDesc) (h : Header) : Session :=
  { window := h.window, pos := h.pos, step := h.step.toNat, len := h.len.toNat, attr := h.attr.toNat, cnt := h.cnt.toNat,
    got := [], held := [], root := none, desc := d }

/-- Take an ordered partial into its session (R97 to R99). -/
def accordStage (e : Nat) (d : LensDesc) (p : Packet) (s : State) : State :=
  let h := p.hdr
  let b := s.epb e
  let node := (h.level.toNat, h.index.toNat)
  let mine := fun (x : Session) => x.root.isNone && x.named h.window h.pos h.step.toNat
  let old := b.sessions.find? mine
  let agrees := match old with
    | some x => x.len == h.len.toNat && x.attr == h.attr.toNat && x.cnt == h.cnt.toNat && !x.got.any (leavesMeet node)
    | none => true
  if !agrees then answer e h stMalformed s
  else if (old.isNone && 64 ≤ (openSessions b).length) || 2 ^ 22 < stagedBytes b + h.payLen then answer e h stHoldFull s
  else
    let x := old.getD (newSession d h)
    let r := climb 13 { x with got := x.got ++ [node] } { level := node.1, index := node.2, payload := p.payload } 0
    let s := s.modEpb e fun b => { b with sessions := b.sessions.filter (fun y => !mine y) ++ [r.2] }
    let s := countEpb e (if h.op.toNat == opLse then 10 else 9) 1 (countEpb e 12 r.1 s)
    answer e h stOk s

/-- Write a notification entry, where they are enabled (R230). -/
def notifyEntry (e : Nat) (x : Session) (abandoned : Bool) (s : State) : State :=
  let b := s.epb e
  if !b.notifyEn then s
  else
    let a := b.notifyBase * 8192 + 8 * (x.step % 512)
    let v := x.step + fld 16 x.window + fld 28 (b2n (8 ≤ x.attr / 16)) + fld 29 (b2n abandoned) + fld 63 1
    let s := segWrite e { pool := true, addr := a, len := 8 } (leBytes 8 v) s
    wakeWatchers e x.window (noteScope e a 8 (some (8, 2)) s)

/-- Abandon a session: its partials go, the target stays, and the end is recorded (R100, R230). -/
def abandon (e : Nat) (x : Session) (st : Nat) (s : State) : State :=
  let s := s.modEpb e fun b => { b with sessions := b.sessions.filter (· != x) }
  let s := faultRecord (windowPort s e x.window) (mkRecord s 0x05 st 2 0 e []
    (leBytes 2 x.step ++ zeros 2 ++ leBytes 2 x.window ++ zeros 2 ++ leBytes 5 x.pos)) s
  notifyEntry e x true s

/-- A formed root is written (R98, R100, R101, R230); one whose page is away waits for it, and one whose granule has a write
in progress waits for its end (R135). Where the page's entry has become invalid, or its page is lost, the session ends as
R100 ends one, with the status a request would get there: R100 names no such case (DESIGN CHOICE, assumption 73). -/
def writeRoot (e : Nat) (x : Session) (root : List Byte) (s : State) : State :=
  let bs := accordRoot x.attr x.cnt root
  match windowTarget s e x.desc x.window x.pos bs.length with
  | .wait cpn =>
    match pageVerdict s cpn with
    | some st => abandon e x st (noteLost cpn s)
    | none => demandPage cpn s
  | .fail st a => abandon e x st (if st = stUncorrected then ueNote a s else s)
  | .segs gs =>
    if segsBad s e true gs then abandon e x stUncorrected (segsNote true gs s)
    else if granuleBusy s e gs then s
    else
      let s := cachePages e x.desc x.window x.pos bs.length s
      let s := markBusy e opStore gs (targetWrite e (some (8, 2)) gs bs s)
      let s := countEpb e 11 1 (s.modEpb e fun b => { b with sessions := b.sessions.filter (· != x) })
      notifyEntry e x false s

/-! ### One request (R63, R85, R87, R121) -/

/-- Does the operation write its target, and so meet the same-granule service (R135)? -/
def writesTarget (op : Nat) : Bool :=
  op == opStore || op == opMcast || op == opFetch || op == opCswap || op == opReduce || op == opWreduce

/-- The work of a request that has passed every check. -/
def workStage (e : Nat) (d : LensDesc) (p : Packet) (gs : List Seg) (s : State) : State :=
  let op := p.hdr.op.toNat
  if inStream op then streamStage e p gs s
  else if op == opLoad then loadStage e p gs s
  else if op == opFetch || op == opCswap then atomicStage e p gs s
  else if op == opReduce || op == opWreduce then reduceStage e p gs s
  else accordStage e d p s

/-- Would a flagged packet be held or refused rather than applied now (R121)? -/
def heldBack (s : State) (e : Nat) (h : Header) : Bool :=
  let r := (recOf s e h).getD (newRec h)
  h.f = 1 && (r.held.isSome || r.landed < h.cnt.toNat || r.broken)

/-- Must a checked write wait behind another to one of its granules (R137)? -/
def mustQueue (s : State) (e : Nat) (p : Packet) (gs : List Seg) : Bool :=
  writesTarget p.hdr.op.toNat && !heldBack s e p.hdr && granuleBusy s e gs

/-- A failed check of R63: a stream packet breaks its stream (R121, R123). -/
def failCheck (e st : Nat) (p : Packet) (s : State) : State :=
  let h := p.hdr
  let s := answer e h st s
  if inStream h.op.toNat && st != stHoldFull then breakStream e st h ((recOf s e h).getD (newRec h)) s else s

/-- A request that meets a page whose eviction has not begun to write cancels the eviction (R266). -/
def meetEviction (e : Nat) (d : LensDesc) (h : Header) (s : State) : State :=
  match windowTarget s e d h.window h.pos (addressed h) with
  | .wait cpn => if (pageVerdict s cpn).isNone && pageState s cpn = pgOut then cancelEviction cpn s else s
  | .segs _ => s
  | .fail _ _ => s

/-- Checks 3 to 8 and the work of a request, under a descriptor (R63). -/
def afterChecks (e : Nat) (d : LensDesc) (p : Packet) (s : State) : State :=
  let h := p.hdr
  match lensVerdict d h with
  | some st => failCheck e st p s
  | none =>
    let s := meetEviction e d h s
    match windowTarget s e d h.window h.pos (addressed h) with
    | .fail st a => failCheck e st p (if st = stUncorrected then ueNote a s else s)
    | .wait cpn =>
      match pageVerdict s cpn with
      | some st => failCheck e st p (noteLost cpn s)
      | none =>
        if 256 ≤ (s.epb e).pageWait.length then failCheck e stHoldFull p s
        else
          let s := countEpb e 18 1 (s.modEpb e fun b =>
            { b with pageWait := b.pageWait ++ [{ pkt := p, cpn := cpn, desc := d }] })
          demandPage cpn s
    | .segs gs =>
      let s := cachePages e d h.window h.pos (addressed h) s
      if mustQueue s e p gs then collideWith e { pkt := p, segs := gs } s else workStage e d p gs s

/-- The stream table is full and the stream has no record (R121). -/
def tableFull (s : State) (e : Nat) (h : Header) : Bool :=
  (recOf s e h).isNone && 8192 ≤ (s.epb e).streams.length

/-- Serve a request after checks 1 and 2, under a descriptor (R121). -/
def serveUnder (e : Nat) (d : LensDesc) (p : Packet) (s : State) : State :=
  let h := p.hdr
  if inStream h.op.toNat then
    if tableFull s e h then holdFull e h s
    else if (match recOf s e h with | some r => r.broken | none => false) then answer e h stStreamBroken s
    else if isCarry h then streamStage e p [] s
    else afterChecks e d p s
  else afterChecks e d p s

/-- Serve a request taken from the receive buffer (R63, R85, R87). -/
def serveRequest (e : Nat) (p : Packet) (s : State) : State :=
  let h := p.hdr
  let s := countEpb e 0 1 (wakeDomain (endpointDom e) s)
  if tornDown s then answer e h stTornDown s
  else match headerVerdict p with
    | some st => answer e h st s
    | none =>
      if s.glob.part != some h.part.toNat then answer e h stFenced s
      else serveUnder e (LensDesc.at_w s e h.window) p s

/-- Would the head of the receive buffer need a place in a full collision queue (R137)? -/
def headBlocked (s : State) (e : Nat) (p : Packet) : Bool :=
  let h := p.hdr
  let d := LensDesc.at_w s e h.window
  collideFull (s.epb e) && writesTarget h.op.toNat && !isCarry h && (lensVerdict d h).isNone &&
  (match windowTarget s e d h.window h.pos (addressed h) with
   | .segs gs => mustQueue s e p gs
   | .fail _ _ => false
   | .wait _ => false)

/-- Take the next packet of an endpoint if its OP is the one named, and do `f` with it. -/
def popRx (e op : Nat) (f : Packet → State → State) (s : State) : State :=
  let s := flushStray e (s.epb e).rx.length s
  match (s.epb e).rx with
  | [] => s
  | p :: _ =>
    if p.hdr.op.toNat != op || headBlocked s e p then s
    else f p (dropHead e p s)

/-- Requests waiting for context pages look again (R265); those of a stream that has broken meanwhile are answered so (R124). -/
def wakeWait (e : Nat) (x : PageWait) (s : State) : State :=
  let s' := s.modEpb e fun b => { b with pageWait := b.pageWait.filter (· != x) }
  let broken := inStream x.pkt.hdr.op.toNat && (match recOf s e x.pkt.hdr with
    | some r => r.broken
    | none => false)
  match pageVerdict s x.cpn with
  | some st =>
    let s := noteLost x.cpn s'
    if broken then answer e x.pkt.hdr stStreamBroken s else failCheck e st x.pkt s
  | none =>
    if collideFull (s.epb e) then s
    else if pageState s x.cpn = pgResident then
      match windowTarget s e x.desc x.pkt.hdr.window x.pkt.hdr.pos (addressed x.pkt.hdr) with
      | .wait c => if c = x.cpn then s else serveUnder e x.desc x.pkt s'
      | .segs _ => serveUnder e x.desc x.pkt s'
      | .fail _ _ => serveUnder e x.desc x.pkt s'
    else demandPage x.cpn s

def wakePages (s : State) : State :=
  forEach (List.range 16) (fun e s => forEach (s.epb e).pageWait (wakeWait e) s) s

/-- After anything Sillage does: commands and requests that wait for it look again (R264, R265). -/
def sillSettle (s : State) : State := wakeLandings (wakePages (wakeSillage s))

end Sys2Proof.Machine
end

