-- ==== Sys2Proof/Machine/SwitchOps.lean ====
section
/-! DEFINITION. What the switch does besides taking packets in: grants, discards, ports going down, fences, sampling
and the audit (10, 11). -/
namespace Sys2Proof.Machine

/-! ### Leaving a queue -/

/-- Take one packet out of a queue: the queue without it, and when the queue became empty (R311). -/
def dequeue (o v : Nat) (q : QPkt) (s : State) : State :=
  let s := cmapAdvance (cmapOf o) s
  let rest := (s.sw.queue o v).filter fun x => x.hold != q.hold
  let s := s.modSw (Switch.setQueue o v rest)
  if rest.isEmpty then s.modSw fun w => { w with emptied := SMap.set 0 w.emptied (8 * o + v) s.now } else s

/-- Discard a queued packet: its cells go when no other copy uses them. -/
def discard (o v : Nat) (q : QPkt) (s : State) : State := freeHold q.hold (dequeue o v q s)

/-- Discard every packet of an output's VCs, noting each. -/
def flushQueues (o : Nat) (vs : List Nat) (note : State → State) (s : State) : State :=
  forEach vs (fun v s => forEach (s.sw.queue o v) (fun q s => note (discard o v q s)) s) s

/-! ### Output grants (R280, R310) -/

/-- The packet of a queue whose input's turn is next: its oldest packet (R280). -/
def nextOfQueue (s : State) (o v : Nat) : Option QPkt :=
  let q := (s.sw.queue o v).filter fun x => !x.doomed
  let last := SMap.get 0 s.sw.rr (8 * o + v)
  match (List.range 105).find? fun d => q.any fun x => x.input == (last + d) % 105 with
  | none => none
  | some d => q.find? fun x => x.input == (last + d) % 105

/-- Is the shaper of the queue silent, or does its peak count allow a packet (R309)? -/
def eligible (s : State) (o v : Nat) : Bool :=
  let b := shaperOf s o v
  v = 0 || v = 7 || !b.cfg.en || 0 < (b.fill s.now).p

/-- Is the queue committed (R309)? -/
def committed (s : State) (o v : Nat) : Bool :=
  let b := shaperOf s o v
  !b.cfg.en || 0 < (b.fill s.now).c

/-- Can the output send the queue's next packet now? -/
def canGrant (s : State) (o v : Nat) : Bool :=
  match nextOfQueue s o v with
  | none => false
  | some q =>
    hasCredit s o v (cellsOf q.pkt) && eligible s o v &&
    (88 ≤ o || (s.live o && (if v = 7 then (s.port o).txT.isEmpty else (s.port o).txD.isEmpty)))

/-- Among the shaped VCs of one class: one passed over for 64 grants, else the highest (R280, R310). -/
def pickClass (s : State) (o : Nat) (vs : List Nat) : Option Nat :=
  match vs.find? fun v => 64 ≤ SMap.get 0 s.sw.passed (8 * o + v) with
  | some v => some v
  | none => vs.head?

/-- The VC an output grants next (R280, R310). -/
def pickVc (s : State) (o : Nat) : Option Nat :=
  if canGrant s o 0 then some 0
  else if canGrant s o 7 then some 7
  else
    let able := [6, 5, 4, 3, 2, 1].filter (canGrant s o)
    match pickClass s o (able.filter (committed s o)) with
    | some v => some v
    | none => pickClass s o (able.filter fun v => !committed s o v)

/-- A sampled packet's record (R322). -/
def mirrorRecord (s : State) (o v : Nat) (q : QPkt) : List Byte :=
  let cap := q.pkt.bytes.take (if s.sw.mirror.trunc = 0 then 32 else if s.sw.mirror.trunc = 1 then 96 else 256)
  let col := match q.colour with | .unpoliced => 0 | .green => 1 | .yellow => 2 | .red => 3
  leBytes 6 s.now ++ leBytes 1 q.input ++ leBytes 1 o ++ leBytes 1 (v + 8 * col) ++ zeros 1 ++ leBytes 2 cap.length
  ++ leBytes 4 q.depth ++ leBytes 2 (min 0xFFFF ((s.now - q.queued) / 20)) ++ zeros 14 ++ cap

/-- Does Mirror match the packet (R320, R321)? -/
def mirrorMatch (s : State) (v : Nat) (q : QPkt) : Bool :=
  let m := s.sw.mirror
  m.en && v != 7 && (m.all || m.input == q.input) && bit m.vcmask v && (!m.redOnly || q.colour == .red) &&
  !(s.sealCore.conf && s.glob.part == some q.pkt.hdr.part.toNat)

/-- Count a match, and sample every Nth (R320, R322). -/
def mirrorSample (o v : Nat) (q : QPkt) (s : State) : State :=
  if !mirrorMatch s v q then s
  else
    let k := s.sw.matched + 1
    let s := s.modSw fun w => { w with matched := k }
    if k % s.sw.mirror.n != 0 then s
    else
      let s := countPort o 15 1 q.pkt.hdr.part.toNat s
      if s.sw.mirrorQ.length < 1024 then
        let r := mirrorRecord s o v q
        s.modSw fun w => { w with mirrorQ := w.mirrorQ ++ [r] }
      else s.modSw fun w => { w with mirrorSkip := cnt32 w.mirrorSkip }

/-- Packets counted as they leave a fabric port (R468). -/
def countTx (o v : Nat) (p : Packet) (s : State) : State :=
  let part := p.hdr.part.toNat
  if v = 7 then s
  else
    let s := countPort o 0 (cellsOf p) part s
    if v = 0 then countPort o 4 1 part s else if v ≤ 3 then countPort o 2 1 part s else countPort o 3 1 part s

/-- Hand a granted packet on: to the link, or to the endpoint's receive buffer with its combine record (R292, R303). -/
def handOver (o v : Nat) (q : QPkt) (s : State) : State :=
  let n := cellsOf q.pkt
  if o < 88 then
    linkSend o q.pkt (countTx o v q.pkt (s.modPort o fun p => { p with credit := SMap.upd 0 p.credit v (· - n) }))
  else
    let s := if q.merged.isEmpty then s
      else s.modSw fun w => { w with combines := w.combines ++ [{ endpoint := o - 88, sources := q.merged }] }
    s.modEpb (o - 88) fun b => { b with rx := b.rx ++ [q.pkt], rxCells := SMap.upd 0 b.rxCells v (· + n) }

/-- A grant of a shaped VC passes over the other eligible VCs of its class once more; a VC that could not have been granted
has no run of grants passed over (R280, R310). Grants of VC0 and VC7 pass over none. -/
def notePassed (o v : Nat) (s : State) : State :=
  if v = 0 || v = 7 then s
  else
    let able := [6, 5, 4, 3, 2, 1].filter (canGrant s o)
    let same := able.filter fun u => committed s o u == committed s o v
    let next := fun u k => if u = v || !able.contains u then 0 else if same.contains u then k + 1 else k
    s.modSw fun w => { w with
      passed := [6, 5, 4, 3, 2, 1].foldl (fun m u => SMap.upd 0 m (8 * o + u) (next u)) w.passed }

/-- Send the next packet of an output on a VC. -/
def grant (o v : Nat) (s : State) : State :=
  match nextOfQueue s o v with
  | none => s
  | some q =>
    let b := shaperOf s o v
    let s := notePassed o v s
    let s := s.modSw fun w =>
      { w with rr := SMap.set 0 w.rr (8 * o + v) ((q.input + 1) % 105),
               shapers := if b.cfg.en && v != 0 && v != 7
                 then SMap.set Bucket.reset w.shapers (8 * o + v) ((b.fill s.now).spend q.pkt.size) else w.shapers,
               cacc := SMap.upd CAcc.reset w.cacc (cmapOf o) fun a =>
                 { a with maxDelay := max a.maxDelay (min 0xFFFF ((s.now - q.queued) / 20)) } }
    let s := mirrorSample o v q s
    let s := dequeue o v q s
    freeHold q.hold (handOver o v q s)

/-- Discard packets the audit found in conflict, as they reach the head of their queue (R308). -/
def dropDoomed (o : Nat) (s : State) : State :=
  forEach (List.range 8) (fun v s =>
    forEach ((s.sw.queue o v).takeWhile fun q => q.doomed) (fun q s => discard o v q s) s) s

/-- One grant of an output (R280, R310). -/
def grantOutput (o : Nat) (s : State) : State :=
  let s := dropDoomed o s
  match pickVc s o with
  | none => s
  | some v => grant o v s

/-! ### Ports going down (R297, R307) -/

/-- Packets whose start is among the frames, and one more where the first frame continues a packet. -/
def packetsIn (frames : List (FrameType × Nat)) : Nat :=
  let of := fun (t : FrameType) => (frames.filter fun f => f.1 == t).map (·.2)
  let cnt := fun (l : List Nat) =>
    (l.filter (· != 31)).length + (match l with | 31 :: _ => 1 | _ => 0)
  cnt (of .data) + cnt (of .dataT)

/-- Packets part-way through transmission or held in the retry buffer (R297 step 3). -/
def packetsLost (p : Port) : Nat :=
  packetsIn ((p.retry.map fun f => (f.type, f.pstart)) ++ (p.txD.map fun c => (FrameType.data, c.pstart))
    ++ (p.txT.map fun c => (FrameType.dataT, c.pstart)))

/-- Choose again for a packet queued towards a downed port, once (R297 step 2); transit traffic only within OUT's bundle
(R295). It joins its new queue under that queue's shaper (R325). -/
def rechoose (n v : Nat) (q : QPkt) (s : State) : State :=
  let h := q.pkt.hdr
  let j := h.hop.toNat
  let s := dequeue n v q s
  let h' : Header := { h with vc := if v = 0 then 0 else BitVec.ofNat 3 (hopVc h j) }
  let next : Option (Nat × Nat × Bool) :=
    if q.transit then ((bundlePorts (n / 4)).find? s.live).map fun m => (m, 7, false)
    else if h.op.toNat == opMcast then (copyPort s h' j (n / 4)).map fun m => (m, hopVc h j, false)
    else match routeOf s h' j with
      | .port m d => some (m, outVc s m h' j, d)
      | _ => none
  match next with
  | none => freeHold q.hold (noteDownDrop s)
  | some (m, vc, d) =>
    let s := if d then noteDetour m h.part.toNat s else s
    joinQueue m vc { q with pkt := reHop q.pkt j vc, queued := s.now, depth := queueCells s m vc } s

/-- The sending and receiving state a port loses as it goes down. -/
def Port.dropLink (p : Port) : Port :=
  { p with retry := [], txD := [], txT := [], credit := [], rxPartD := [], rxPartT := [], skipD := false, skipT := false,
           askReplay := false, txChange := none, rxChange := none, degrading := false, recalWant := none,
           recalLane := none, idSent := false, peerGmin := none, resendUntil := 0 }

/-- Take a fabric port down (R297, R307); `st` is the state it is left in. -/
def portGoDown (n : Nat) (st : PortState) (s : State) : State :=
  if !s.live n then s.modPort n fun p => { p.dropLink with state := st }
  else
    let lost := packetsLost (s.port n)
    let s := s.modPort n fun p => { p.dropLink with state := st }
    let s := raising (State.modSw fun w =>
      { w with downDrop := min 0xFFFFFFFF (w.downDrop + lost), evPortDown := true, evPort := n }) s
    forEach (List.range 8) (fun v s => forEach (s.sw.queue n v) (rechoose n v) s) s

/-! ### Fences (R30, R294) -/

/-- The partition ID the package reports to its peers: none in FENCED, CLEARING and without one (R294, R412). -/
def reportedPart (s : State) : Option Nat :=
  if s.glob.state = .fenced || s.glob.state = .clearing then none else s.glob.part

/-- Recompute a port's fence; packets queued towards a port that becomes fenced are discarded and counted. -/
def recomputeFence (n : Nat) (s : State) : State :=
  let p := s.port n
  let own := reportedPart s
  let f := p.force || own.isNone || p.peerPart.isNone || own != p.peerPart || p.wiring
  let s' := s.modPort n fun p => { p with fenced := f }
  if f && !p.fenced then flushQueues n [1, 2, 3, 4, 5, 6, 7] (noteFenceDrop n) s' else s'

/-- May this VC7 packet still leave by port `n`: is the grant it travels under in force (R295)? -/
def grantHolds (s : State) (n : Nat) (q : QPkt) : Bool :=
  let part := q.pkt.hdr.part.toNat
  if q.transit then grantMode s q.input == .through && (s.port q.input).tpart == part else edgeFor s n part

/-- VC7 packets whose grant has been cleared or suspended are discarded and counted (R30, R299, assumption 66). -/
def flushTransit (s : State) : State :=
  forEach (List.range 88) (fun n s =>
    forEach ((s.sw.queue n 7).filter fun q => !grantHolds s n q) (fun q s => noteFenceDrop n (discard n 7 q s)) s) s

/-- The package's partition changed, or what it tells its peers: every port that is up says so, and one at LINK whose ID
frame has already told its peer (R294, R336). -/
def advertise (part : Option Nat) (s : State) : State :=
  forEach (filterBelow 88 fun n => s.live n || ((s.port n).state == .link && (s.port n).idSent))
    (fun n s => s.emit (.advert n part)) s

/-- Take an endpoint attachment down: it leaves the candidate sets, and what waits for it is discarded and counted (R277,
R297, assumption 67). -/
def attachGoDown (e : Nat) (s : State) : State :=
  if attachLost s e then s
  else
    let s := raising (State.modSw fun w =>
      { w with attachDown := w.attachDown + 2 ^ e, evPortDown := true, evPort := 88 + e }) s
    flushQueues (88 + e) (List.range 8) noteDownDrop s

def recomputeFences (s : State) : State := forEach (List.range 88) recomputeFence s

end Sys2Proof.Machine
end

