-- ==== Sys2Proof/Machine/LinkOps.lean ====
section
/-! DEFINITION. Lanes and links: training, the way from LINK to UP, received frames, replay and changes of width (01, 10,
11, 12). -/
namespace Sys2Proof.Machine

/-! ### Training (R333 to R337) -/

/-- Versions a port offers, one bit each (R328, R333). -/
def offered (p : Port) : Nat := 2 ^ p.maxVer - 1

/-- The highest version both offers hold; 0 for none (R328). -/
def commonVersion (a b : Nat) : Nat :=
  if bit a 2 && bit b 2 then 3 else if bit a 1 && bit b 1 then 2 else if bit a 0 && bit b 0 then 1 else 0

/-- The presets (R334). -/
def presetTaps (i : Nat) : Taps Int :=
  match i with
  | 1 => { m3 := 0, m2 := 0, m1 := 0, c0 := 64, p1 := 0 }
  | 2 => { m3 := 0, m2 := 0, m1 := -8, c0 := 52, p1 := -4 }
  | _ => { m3 := 0, m2 := 2, m1 := -12, c0 := 46, p1 := -4 }

/-- A preset at a version: untrained taps are 0, and c(0) takes the remainder below version 3 (R334). -/
def presetAt (v i : Nat) : Taps Int :=
  let t := presetTaps i
  if v = 3 then t
  else
    let m2 : Int := if v = 2 then t.m2 else 0
    { t with m3 := 0, m2 := m2, c0 := 64 - m2.natAbs - t.m1.natAbs - t.p1.natAbs }

/-- One lane starts training. In the near-end parallel loop there is no analogue path to train: the lane goes straight to
ALIGN (R347). -/
def freshLane (n k : Nat) (s : State) : State :=
  let parallel := (s.port n).state == .loop && (s.port n).loop = 2
  let s := s.modPort n fun p => p.modLane k fun l => { l.fresh p.noPrecode with ts := if parallel then .align else .detect }
  if parallel then s else sendTrain n k s

/-- A failed lane retrains alone: its first try (R344). -/
def retrainAlone (n k : Nat) (s : State) : State := sendTrain n k (s.modPort n (Port.retrainLane k))

/-- A port starts training on all its lanes (R335, R337); in a loop mode it reads LOOP instead (R347). -/
def startTraining (n : Nat) (s : State) : State :=
  let p := s.port n
  if !p.en || !s.sw.ready || p.testGen then s
  else
    let s := s.modPort n fun p =>
      { p with state := if p.loop = 0 then .detect else .loop, failed := 0, lanesOn := 0, version := 0,
               trainings := cnt16 p.trainings }
    forEach [0, 1, 2, 3] (freshLane n) s

/-- Training has failed: the port waits in DISABLED for the next (R335, R337). -/
def trainingFailed (n : Nat) (s : State) : State :=
  raising (State.modPort n fun p =>
    { p with state := .disabled, lanesOn := 0, version := 0, failRun := p.failRun + 1,
             evRetrainFail := p.evRetrainFail || 2 ≤ p.failRun }) s

/-! ### LINK and UP (R24, R306, R336) -/

/-- Every cell charged to the reserves of an input has been freed, and no packet of the last link is still to be
charged (R303, R306). -/
def reservesFree (s : State) (n : Nat) : Bool :=
  (s.port n).rx.isEmpty && (List.range 8).all fun v => SMap.get 0 s.sw.inResv (8 * n + v) == 0

/-- Send the ID frame once it may be sent (R306, R336). -/
def sendId (n : Nat) (s : State) : State :=
  let p := s.port n
  if p.state == .link && !p.idSent && s.glob.positionValid && s.glob.slotValid && reservesFree s n then
    (s.modPort n fun p => { p with idSent := true }).emit (.ident n
      { position := s.glob.position, portOff := n % 4, part := reportedPart s,
        gmin := (List.range 8).map fun v => SMap.get 0 s.sw.gmin v })
  else s

/-- Does R24 find a mismatch on a port? -/
def wiringBad (s : State) (n : Nat) : Bool :=
  (s.port n).peerPos != neighbour s.glob.position (n / 4) || (s.port n).peerOff != n % 4

/-- A port becomes UP: sequence numbers, acknowledgements and credits start from zero, and the sender's credits are the
peer's reserves (R306, R336). Lanes that failed in training retrain alone from now on (R344). -/
def portUp (n : Nat) (g : List Nat) (s : State) : State :=
  let s := s.modPort n fun p =>
    { p with state := .up, txSeq := 0, rxSeq := 0, askReplay := false, retry := [], retCells := [], sentCells := [],
             cvcNext := 0, lastCcnt := [], failRun := 0, frameNo := 0, resendUntil := 0,
             credit := (List.range 8).foldl (fun m v => SMap.set 0 m v (g.getD v 0)) [] }
  let failed := [0, 1, 2, 3].filter fun k => bit (s.port n).failed k
  let s := wakeDomain switchDom (wakeDomain (portDom n) s)
  forEach failed (retrainAlone n) (recomputeFence n (raising (State.modSw fun w => { w with evPortUp := true, evPort := n }) s))

/-- A port at LINK that has sent and received an ID frame is checked by R24, and becomes UP if nothing differs. -/
def linkCheck (n : Nat) (s : State) : State :=
  let s := sendId n s
  let p := s.port n
  match p.peerGmin with
  | none => s
  | some g =>
    if p.state != .link || p.wiring || !s.glob.positionValid then s
    else if wiringBad s n then
      recomputeFence n (raising (State.modSw fun w => { w with evWiring := true })
        (s.modPort n fun p => { p with wiring := true }))
    else if p.idSent then portUp n g s
    else s

/-- Every port that waits at LINK tries again: cells were freed, or the package was placed. -/
def linkPoll (s : State) : State := forEach (filterBelow 88 fun n => (s.port n).state == .link) linkCheck s

/-- Lanes of a port still in training or trained. -/
def remaining (p : Port) : List Nat := [0, 1, 2, 3].filter fun k => !bit p.failed k

/-- STATUS.STATE while training: the least advanced of the remaining lanes; with all of them active the port reaches
LINK (R335). -/
def settleTraining (n : Nat) (s : State) : State :=
  let p := s.port n
  let codes := (remaining p).map fun k => (p.lane k).ts.code
  match p.state with
  | .detect | .cap | .rate | .tap | .align =>
    if codes.isEmpty then trainingFailed n s
    else
      let m := codes.foldl min 6
      if m = 6 then
        linkCheck n (s.modPort n fun p =>
          (bitsOf 4 (chooseLanes p.failed)).foldl (fun p k => p.modLane k fun l => { l with fast := false, txBytes := 0 })
            { p with state := .link, lanesOn := chooseLanes p.failed, wiring := false, idSent := false, peerGmin := none })
      else
        s.modPort n fun p =>
          { p with state := match m with | 2 => .cap | 3 => .rate | 4 => .tap | 5 => .align | _ => .detect }
  | _ => s

/-- A lane fails while its port trains, or while it retrains alone. -/
def failInTraining (n k : Nat) (s : State) : State :=
  settleTraining n (s.modPort n fun p =>
    { p.modLane k (fun l => { l with ts := .idle }) with failed := p.failed ||| 2 ^ k })

/-- A lane has signal, CDR lock and polarity: on to CAP, or after the change of rate to TAP (R332, R335). -/
def cdrLocked (n k : Nat) (inverted : Bool) (s : State) : State :=
  let l := (s.port n).lane k
  let lock := fun (l : Lane) => { l with los := false, lol := false, polarity := inverted }
  match l.ts with
  | .detect => settleTraining n (sendTrain n k (s.modPort n (Port.modLane k fun l => { lock l with ts := .cap })))
  | .rate => settleTraining n (sendTrain n k (s.modPort n (Port.modLane k fun l => { lock l with ts := .tap })))
  | _ => s

/-! ### Tap training (R334) -/

/-- Range of a tap, by place from c(−3) up. -/
def tapRange (i : Nat) : Int × Int :=
  match i with
  | 0 => (-4, 4)
  | 1 => (-8, 8)
  | 2 => (-24, 0)
  | 3 => (32, 64)
  | _ => (-16, 0)

/-- Is the tap trained at the version (R327)? -/
def tapTrained (v i : Nat) : Bool := 2 ≤ i || (i = 1 && 2 ≤ v) || 3 ≤ v

def tapAt {α : Type} (t : Taps α) (i : Nat) : α :=
  match i with
  | 0 => t.m3
  | 1 => t.m2
  | 2 => t.m1
  | 3 => t.c0
  | _ => t.p1

def tapPut {α : Type} (t : Taps α) (i : Nat) (a : α) : Taps α :=
  match i with
  | 0 => { t with m3 := a }
  | 1 => { t with m2 := a }
  | 2 => { t with m1 := a }
  | 3 => { t with c0 := a }
  | _ => { t with p1 := a }

def swing (t : Taps Int) : Nat := t.m3.natAbs + t.m2.natAbs + t.m1.natAbs + t.c0.natAbs + t.p1.natAbs

/-- One request for tap `i`: the new taps and the status answered (R334, R351). -/
def tapStep (v i : Nat) (up : Bool) (t : Taps Int) : Taps Int × TapStat :=
  let x := tapAt t i + (if up then 1 else -1)
  let t' := tapPut t i x
  let r := tapRange i
  if !tapTrained v i || x < r.1 || r.2 < x || 64 < swing t' then (t, .refused)
  else if x = r.1 || x = r.2 || swing t' = 64 then (t', .atLimit)
  else (t', .updated)

/-- The transmitter answers the request for tap `i`; a status once given stands until the request returns to hold. -/
def answerTap (v : Nat) (req : Taps TapReq) (l : Lane) (i : Nat) : Lane :=
  match tapAt req i with
  | .hold => { l with stat := tapPut l.stat i .notUpdated }
  | .reserved => { l with stat := tapPut l.stat i .refused }
  | r =>
    if tapAt l.stat i != .notUpdated then l
    else
      let a := tapStep v i (r == .increment) l.taps
      { l with taps := a.1, stat := tapPut l.stat i a.2 }

/-- The transmitter acts on the requests of a training frame; a preset is answered on every tap (assumption 31). -/
def answerTaps (v : Nat) (f : TrainFrame) (l : Lane) : Lane :=
  if f.preset.val != 0 then
    if l.stat == Taps.all .notUpdated then { l with taps := presetAt v f.preset.val, stat := Taps.all .updated } else l
  else [0, 1, 2, 3, 4].foldl (answerTap v f.req) l

/-- The taps a lane's receiver is asking about. -/
def asking (l : Lane) : List Nat :=
  if l.presetReq != 0 then [0, 1, 2, 3, 4] else [0, 1, 2, 3, 4].filter fun i => tapAt l.req i != .hold

/-- A handshake has been answered, or counts as refused: back to hold (R334). -/
def Lane.answered (l : Lane) : Lane :=
  { l with req := Taps.all .hold, presetReq := 0, release := true, handshakes := l.handshakes + 1 }

/-- The receiver's next move, once nothing is asked and STAT reads 00 (R334). -/
def Lane.next (wish : RxWish) (l : Lane) : Lane :=
  if l.doneTx then l
  else if 4096 ≤ l.handshakes then { l with doneTx := true }
  else
    match wish with
    | .wait => l
    | .done => { l with doneTx := true }
    | .preset p => { l with presetReq := p.val }
    | .tap r =>
      if (([0, 1, 2, 3, 4].filter fun i => tapAt r i != .hold).length = 1) &&
         [0, 1, 2, 3, 4].all (fun i => tapAt r i != .reserved) then { l with req := r } else l

/-- The receiver acts on the statuses of a training frame (R334). -/
def followTaps (stat : Taps TapStat) (wish : RxWish) (l : Lane) : Lane :=
  let a := asking l
  if !a.isEmpty then if a.any fun i => tapAt stat i != .notUpdated then l.answered else l
  else if l.release then
    if stat == Taps.all .notUpdated then ({ l with release := false } : Lane).next wish else l
  else l.next wish

/-- A lane in CAP receives a training frame: the version and the precoding are agreed (R328, R329, R335). -/
def capFrame (n k : Nat) (f : TrainFrame) (s : State) : State :=
  let p := s.port n
  let v := commonVersion (offered p) f.vers.val
  if v = 0 then s
  else
    let s := s.modPort n fun p =>
      { p.modLane k (fun l =>
          { l with peerVers := f.vers.val, precodeTx := 2 ≤ v && f.precodeReq, ts := if v = 1 then .tap else .rate })
        with version := if p.state == .up || p.state == .link then p.version else v }
    settleTraining n (sendTrain n k s)

/-- A lane in TAP receives a training frame (R334, R335). -/
def tapFrame (n k : Nat) (f : TrainFrame) (wish : RxWish) (s : State) : State :=
  let v := (s.port n).version
  let s := s.modPort n (Port.modLane k fun l =>
    { followTaps f.stat wish (answerTaps v f l) with doneRx := l.doneRx || f.done })
  let s := sendTrain n k s
  let l := (s.port n).lane k
  if l.doneRx && l.doneTx then settleTraining n (s.modPort n (Port.modLane k fun l => { l with ts := .align })) else s

/-- What a lane's receiver hears: the peer's training frame; in the near-end serial loop its own transmitter's; in the
near-end parallel loop nothing (R347). -/
def heardFrame (n k : Nat) (w : BitVec 128) (s : State) : Option TrainFrame :=
  let p := s.port n
  if p.state == .loop && p.loop = 1 then some (trainWord n k p)
  else if p.state == .loop && p.loop = 2 then none
  else TrainFrame.ofWord w

/-- A training frame on a lane: one without its SYNC or with a bad CRC is ignored (R333), and one with another lane's
offset fails the lane (R332). -/
def trainFrame (n k : Nat) (w : BitVec 128) (wish : RxWish) (s : State) : State :=
  match heardFrame n k w s with
  | none => s
  | some f =>
    match ((s.port n).lane k).ts with
    | .cap => if f.lane.val != k then failInTraining n k s else capFrame n k f s
    | .tap => if f.lane.val != k then failInTraining n k s else tapFrame n k f wish s
    | _ => s

/-- Lanes that have not finished TAP fail (R335). -/
def trainingDeadline (n : Nat) (s : State) : State :=
  let p := s.port n
  match p.state with
  | .detect | .cap | .rate | .tap | .align =>
    forEach ((remaining p).filter fun k => (p.lane k).ts.code < 5) (failInTraining n) s
  | _ => s

/-! ### Received frames (R338 to R341) -/

/-- The receiver asks for a replay after a bad frame (R340, R341). -/
def badFrame (n : Nat) (s : State) : State :=
  if !s.live n then s
  else sendIdle n (countPort n 17 1 0 (s.modPort n fun p => { p with crcErr := cnt16 p.crcErr, askReplay := true }))

/-- Time of one link frame in hundredths of a nanosecond (R327). -/
def frameTime (v lanes : Nat) : Nat :=
  let w := laneCount lanes
  if v = 3 then (if w = 4 then 242 else if w = 2 then 484 else 968)
  else if v = 2 then (if w = 4 then 484 else if w = 2 then 968 else 1935)
  else (if w = 4 then 1020 else if w = 2 then 2040 else 4080)

/-- The frames of a resend, in order, as far as the slots of their kinds let them go (R316, R341). -/
def resendGo (n : Nat) : List SentFrame → State → State
  | [], s => s
  | f :: fs, s =>
    match reachSlot n f.type s with
    | none => s
    | some s => resendGo n fs (countPort n 16 1 0 (emitInSlot n f s))

/-- Resend every frame in the retry buffer, oldest first (R341). -/
def resend (n : Nat) (s : State) : State :=
  let p := s.port n
  match p.retry with
  | [] => s
  | f :: _ =>
    let s := s.modPort n fun p =>
      { p with resendFrom := f.seq, resendUntil := s.now + cdiv (p.retry.length * frameTime p.version p.lanesOn) 100 }
    resendGo n p.retry s

/-- Is the sender already resending from this SEQ or an earlier one (R341)? -/
def resending (s : State) (n seq : Nat) : Bool :=
  let p := s.port n
  s.now < p.resendUntil && (seq + 2 ^ 16 - p.resendFrom) % 2 ^ 16 < 1024

/-- Frames acknowledged leave the retry buffer. -/
def ackDrop (a : Nat) (l : List SentFrame) : List SentFrame :=
  if l.any fun f => f.seq == a then (l.dropWhile fun f => f.seq != a).drop 1 else l

/-- Layout of a CTRL frame's data unit 0: F in [3:0], the kind in [9:8], the named SEQ in [31:16] (assumption 32). -/
def ctrlData (kind f seq : Nat) : List Byte := leBytes 8 (f + fld 8 kind + fld 16 seq)

/-- Agree with the peer on a new F from 64 frames after this one, by a RECAL (kind 1) or RESTORE (kind 2) (R344, R346). -/
def sendChange (n kind f : Nat) (s : State) : State :=
  let seq := ((s.port n).txSeq + 65) % 2 ^ 16
  let s := sendSequenced n .ctrl { pstart := 31, pad := 30, data := ctrlData kind f seq } s
  s.modPort n fun p => { p with txChange := some { atSeq := seq, failed := f } }

/-- Lanes that have retrained and still stand in F leave it, if that gives a wider choice, by RESTORE, once the retry
buffer has room for it (R341, R344). -/
def offerRestore (n : Nat) (s : State) : State :=
  let p := s.port n
  let back := [0, 1, 2, 3].filter fun k => bit p.failed k && (p.lane k).ts == .active
  let f := maskOf ([0, 1, 2, 3].filter fun k => bit p.failed k && !back.contains k)
  if !back.isEmpty && laneCount p.lanesOn < laneCount (chooseLanes f) && p.txChange.isNone && retryRoom s n then
    sendChange n 2 f s
  else s

/-- Recalibrations in progress among some ports. -/
def recalibrating (s : State) (l : List Nat) : Nat := (l.filter fun n => (s.port n).recalLane.isSome).length

/-- Has the port sent DATA frames in more than half its frame times over the last 100 µs (R346)? -/
def foregroundBusy (s : State) (n : Nat) : Bool :=
  let p := s.port n
  let sent := (p.dataTimes.filter fun t => s.now < t + 100000).length
  10000000 < 2 * sent * frameTime p.version p.lanesOn

/-- Take the lane that waits for a recalibration by RECAL, where the foreground, the limits and the retry buffer let it;
the foreground holds it back for at most 1 s (R346, R351). -/
def tryRecal (n : Nat) (s : State) : State :=
  let p := s.port n
  match p.recalWant with
  | none => s
  | some (k, since) =>
    let f := p.failed ||| 2 ^ k
    if !s.live n || !p.recalEn || bit p.failed k || chooseLanes f = 0 || p.recalLane.isSome || p.txChange.isSome
       || 0 < recalibrating s (bundlePorts (n / 4)) || 8 ≤ recalibrating s (List.range 88)
       || (foregroundBusy s n && s.now < since + 1000000000) || !retryRoom s n then s
    else (sendChange n 1 f s).modPort n fun p => { p with recalLane := some k }

/-- Every port whose lane waits for a recalibration tries again. -/
def recalPoll (s : State) : State := forEach ((s.ports.filter fun q => q.2.recalWant.isSome).map (·.1)) tryRecal s

/-- What a port does between frames: it offers a RESTORE, and lanes that wait for a recalibration try again (R344, R346). -/
def linkChores (n : Nat) (s : State) : State := recalPoll (offerRestore n s)

/-- The ACK, credit and REPLAY fields of a good frame (R340, R341). -/
def takeFields (n : Nat) (f : Frame) (s : State) : State :=
  let a := f.ack.toNat
  let v := f.cvc.toNat
  let s := cmapAdvance (cmapOf n) s
  let s := s.modPort n fun p =>
    let d := (f.ccnt.toNat + 2048 - SMap.get 0 p.lastCcnt v) % 2048
    let p := { p with retry := ackDrop a p.retry, degrading := false }
    if d < 1024 then
      { p with lastCcnt := SMap.set 0 p.lastCcnt v f.ccnt.toNat, credit := SMap.upd 0 p.credit v (· + d) }
    else p
  let s :=
    if f.replay == 1 && !(s.port n).retry.isEmpty && !resending s n ((a + 1) % 2 ^ 16) then
      resend n (s.modPort n fun p => { p with replays := cnt16 p.replays })
    else s
  linkChores n (pumpPort n s)

/-- Packets of a byte stream: those that end within it, what is left over, and whether the receiver lost its place at a
header that fails its CRC, or whose LEN is 257 to 511: it then skips to the next packet start the link marks. The bad
header itself is passed on, to be counted (R86, R276). -/
def cutPackets : Nat → List Byte → List Packet × List Byte × Bool
  | 0, bs => ([], bs, false)
  | k + 1, bs =>
    if bs.length < 32 then ([], bs, false)
    else
      let h := Header.ofBytes bs
      if !h.hcrcOk || 257 ≤ h.len.toNat then ([{ hdr := h, payload := [], trailer := 0 }], [], true)
      else if bs.length < h.size then ([], bs, false)
      else
        let r := cutPackets k (bs.drop h.size)
        (Packet.ofBytes (bs.take h.size) :: r.1, r.2)

/-- One frame's data after what was left over: packets, what is left over, and whether the place is lost (R339). -/
def reassemble (left : List Byte) (skip : Bool) (f : Frame) : List Packet × List Byte × Bool :=
  let data := (fitBytes 240 f.data).take (8 * min 30 f.pad.toNat)
  let start := f.pstart.toNat
  if left.isEmpty || skip then
    if start < 30 then cutPackets 32 (data.drop (8 * start)) else ([], [], skip)
  else
    let r := cutPackets 32 (left ++ data)
    if r.2.2 && start < 30 && r.1.length = 1 then
      let q := cutPackets 32 (data.drop (8 * start))
      (r.1 ++ q.1, q.2)
    else r

/-- The packets of a DATA or DATA_T frame go to the switch (R339). -/
def takeData (n : Nat) (t : Bool) (f : Frame) (s : State) : State :=
  s.modPort n fun p =>
    let r := reassemble (if t then p.rxPartT else p.rxPartD) (if t then p.skipT else p.skipD) f
    let p := { p with rx := p.rx ++ r.1 }
    if t then { p with rxPartT := r.2.1, skipT := r.2.2 } else { p with rxPartD := r.2.1, skipD := r.2.2 }

/-- A CTRL frame RECAL or RESTORE names the SEQ from which both ends use the new lanes (R344, R346). -/
def takeCtrl (n : Nat) (f : Frame) (s : State) : State :=
  let d := leAt f.data 0 8
  let kind := bits d 9 8
  if kind = 1 || kind = 2 then
    s.modPort n fun p => { p with rxChange := some { atSeq := bits d 31 16, failed := bits d 3 0 } }
  else s

/-- A good sequenced frame in its turn (R341, R344). -/
def takeSequenced (n : Nat) (type : FrameType) (f : Frame) (s : State) : State :=
  let due := (s.port n).rxChange.filter fun ch => ch.atSeq == f.seq.toNat
  let fresh := match due with
    | none => []
    | some ch => (s.port n).newlyFailed ch.failed
  let s := raising (State.modLanes n fun p =>
    let p := { p with rxSeq := f.seq.toNat, askReplay := false }
    match due with
    | none => p
    | some ch => { p.applyChange ch with rxChange := none }) s
  let s := sendTrains n fresh s
  match type with
  | .data => takeData n false f s
  | .dataT => takeData n true f s
  | .ctrl => takeCtrl n f s
  | .idle => s
  | .degrade => s

/-- F grows to `f` by a failure known at this end or told by the peer: every recalibration of the port is cancelled, its
lane counts in F, and every lane new in F retrains alone (R343, R344, R346, R350). -/
def growFailed (n f : Nat) (degrading : Bool) (s : State) : State :=
  let fresh := (s.port n).newlyFailed f
  sendTrains n fresh (raising (State.modLanes n fun p =>
    fresh.foldl (fun p k => p.retrainLane k)
      { p.setFailed f with evDegrade := true, degrading := degrading, recalLane := none, recalWant := none, txChange := none,
                           rxChange := none }) s)

/-- The lane a recalibration has taken or is about to take, as a mask. -/
def Port.recalMask (p : Port) : Nat :=
  match p.recalLane with
  | none => 0
  | some k => 2 ^ k

/-- A DEGRADE frame: merge F, change lanes, answer (R343). An end that learns nothing new and has nothing new to tell
does not answer again (assumption 33). -/
def takeDegrade (n : Nat) (f : Frame) (s : State) : State :=
  let p := s.port n
  let theirs := leAt f.data 0 8 % 16
  let s := s.modPort n fun p => { p with degrading := false }
  if p.failed ||| theirs = p.failed && p.failed = theirs then s
  else
    let merged := p.failed ||| theirs ||| p.recalMask
    if chooseLanes merged = 0 then portGoDown n .disabled (s.modLanes n (Port.setFailed merged))
    else
      let s := growFailed n merged (merged != p.failed) s
      emitFrame n .degrade (s.port n).txSeq 31 30 (leBytes 8 merged) s

/-- Corrected symbols and uncorrectable codewords of each lane (R330, R349, R468). -/
def noteFec (n : Nat) (fec : FecWork) (s : State) : State :=
  forEach fec (fun w s =>
    let s := if rsCorrects w.2 then countPort n 18 w.2 0 s else countPort n 19 1 0 s
    s.modPort n (Port.modLane w.1 fun l =>
      if rsCorrects w.2 then { l with corrSym := min 0xFFFFFF (l.corrSym + w.2) }
      else { l with uncorrCw := cnt16 l.uncorrCw })) s

/-- Does a codeword that cannot be corrected mark the frame's bytes bad (R330)? -/
def fecFails (fec : FecWork) : Bool := fec.any fun w => !rsCorrects w.2

/-- A frame received on a port (R338 to R341), with what the FEC found. In far-end loop it is sent back unchanged and
nothing is decoded; in the near-end loops it is the port's own and goes no further (R347). At LINK only DEGRADE matters
(R343). -/
def rxFrame (n : Nat) (type : FrameType) (fec : FecWork) (f : Frame) (s : State) : State :=
  let p := s.port n
  let s := if type == .idle then s else wakeDomain (portDom n) s
  if p.state == .loop && p.loop = 3 then s.emit (.looped n type f)
  else if p.state == .loop then noteFec n fec s
  else if p.state == .link then
    let s := noteFec n fec s
    if type == .degrade && !fecFails fec && f.crc == frameCrc type f then takeDegrade n f s else s
  else if !s.live n then s
  else if fecFails fec || f.crc != frameCrc type f then badFrame n (noteFec n fec s)
  else
    let s := noteFec n fec s
    let s := takeFields n f s
    if type.sequenced then
      let p := s.port n
      if f.seq.toNat = (p.rxSeq + 1) % 2 ^ 16 then sendIdle n (takeSequenced n type f s)
      else sendIdle n (s.modPort n fun p => { p with askReplay := true })
    else
      match type with
      | .degrade => takeDegrade n f s
      | _ => s

/-! ### Lane failure, retraining, recalibration (R342 to R346) -/

/-- What a failure shows in the lane's register. -/
def noteCause (c : LaneCause) (l : Lane) : Lane :=
  match c with
  | .signal => { l with los := true }
  | .cdr => { l with lol := true }
  | .markers => { l with locked := false }
  | .codewords => l
  | .laneOffset => l
  | .tapUnfinished => l

/-- F grows by a lane, and by one being recalibrated: DEGRADE on the old lanes, then the new lanes; a failed lane retrains
alone (R343, R344, R350). -/
def narrow (n k : Nat) (s : State) : State :=
  let p := s.port n
  let f := p.failed ||| 2 ^ k ||| p.recalMask
  if chooseLanes f = 0 then portGoDown n .disabled (s.modLanes n (Port.setFailed f))
  else growFailed n f true (emitFrame n .degrade p.txSeq 31 30 (leBytes 8 f) s)

/-- A lane fails in the receive direction (R342, R343, R347). -/
def laneFails (n k : Nat) (cause : LaneCause) (s : State) : State :=
  let s := s.modPort n (Port.modLane k (noteCause cause))
  let p := s.port n
  match p.state with
  | .up | .link => if bit p.failed k then s else narrow n k s
  | .detect | .cap | .rate | .tap | .align => if bit p.failed k then s else failInTraining n k s
  | _ => s

/-- A lane that retrains alone has finished, or failed; it is tried at most three times (R344). -/
def laneRetrained (n k : Nat) (ok : Bool) (s : State) : State :=
  let p := s.port n
  if !s.live n || !bit p.failed k || (p.lane k).ts == .idle then s
  else if ok then
    linkChores n (s.modPort n (Port.modLane k fun l => { l with ts := .active, locked := true, tries := 0 }))
  else if (p.lane k).tries < 3 then
    let tries := (p.lane k).tries + 1
    sendTrain n k (s.modPort n fun p => p.modLane k fun l => { l.fresh p.noPrecode with tries := tries })
  else s.modPort n (Port.modLane k fun l => { l with ts := .idle })

/-- A lane's margin or the temperature calls for a full recalibration: the need is noted once, and the lane is taken when
R346 lets it. -/
def recalibrate (n k : Nat) (margin : Nat) (tempMoved : Bool) (s : State) : State :=
  let s := s.modPort n (Port.modLane k fun l => { l with margin := margin })
  let p := s.port n
  if !s.live n || !p.recalEn || bit p.failed k || !(margin < 32 || tempMoved) then s
  else
    let now := s.now
    recalPoll (raising (State.modPort n fun p =>
      { p with evMarginal := true, recalWant := if p.recalWant.isNone then some (k, now) else p.recalWant }) s)

/-! ### Writes of PORT_n.CTRL and PORT_n.TEST (R337, R347, R348) -/

/-- A write of PORT_n.CTRL. -/
def portCtrlWrite (n v : Nat) (s : State) : State :=
  let p := s.port n
  let loop := if p.force then bits v 7 6 else p.loop
  let en := bit v 0
  let s := s.modPort n fun p =>
    { p with en := en, maxVer := if bits v 2 1 = 0 then p.maxVer else bits v 2 1, noPrecode := bit v 3,
             autoRetrain := bit v 4, recalEn := bit v 5, loop := loop }
  let s := if !en then setDomain (portDom n) .off s else if s.domain (portDom n) == .off then setDomain (portDom n) .full s else s
  if p.en && !en then
    (portGoDown n .disabled s).modPort n fun p =>
      [0, 1, 2, 3].foldl (fun p k => p.modLane k fun l => { l with ts := .idle, locked := false })
        { p with lanesOn := 0, version := 0 }
  else if en && (!p.en || loop != p.loop || bit v 8) then
    startTraining n (portGoDown n .disabled s)
  else s

/-- A write of PORT_n.TEST: a port that generates patterns drives them on every lane and is down to the switch (R348). -/
def portTestWrite (n v : Nat) (s : State) : State :=
  let p := s.port n
  let s := s.modPort n fun p => { p with testGen := bit v 0, testChk := bit v 1, testPattern := bits v 3 2 }
  if bit v 0 then
    let s := if p.testGen then s else portGoDown n .test s
    if p.testGen && p.testPattern = bits v 3 2 then s else s.emit (.pattern n (bits v 3 2) true)
  else if p.testGen then (s.modPort n fun p => { p with state := .disabled }).emit (.pattern n p.testPattern false)
  else s

/-- The checker counts the symbol errors of a stretch of test pattern over all lanes (R348). -/
def checkPattern (n : Nat) (fec : FecWork) (s : State) : State :=
  s.modPort n fun p =>
    if p.testChk then { p with testErrors := min 0xFFFFFFFF (p.testErrors + (fec.map (·.2)).foldl (· + ·) 0) } else p

end Sys2Proof.Machine
end

