-- ==== Sys2Proof/Machine/CntOps.lean ====
section
/-! DEFINITION. Reading, chaining, clearing and copying performance counters (18). -/
namespace Sys2Proof.Machine

/-- A counter as its register reads (R465). -/
def counterWord (s : State) (k : CKind) (snap : Bool) (u i : Nat) : Nat :=
  let c := s.cnt
  let v := SMap.get Counter.reset (if snap then c.snapBank k else c.bank k) (k.per * u + i)
  v.value + fld 48 (b2n v.ovf) + fld 49 (b2n (c.chained k i))

/-- A write of 1 to OVF of a live counter (R466). -/
def ovfWrite (k : CKind) (u i v : Nat) (s : State) : State :=
  if !bit v 48 then s
  else s.modCnt fun c =>
    c.setBank k (SMap.upd Counter.reset (c.bank k) (k.per * u + i) fun x => { x with ovf := false })

/-- Drop the counters of a kind whose chain bit a write changes (R467). -/
def chainBank (k : CKind) (diff : Nat) (c : Counters) : Counters :=
  c.setBank k ((c.bank k).filter fun q => !bit diff (k.chainLo + q.1 % k.per / 2))

/-- A write of COUNTERS.CHAIN, ignored in confidential mode (R467, R472). -/
def chainWrite (v : Nat) (s : State) : State :=
  if s.sealCore.conf then s
  else s.modCnt fun c =>
    let v := v % 2 ^ 60
    let diff := c.chain ^^^ v
    { chainBank .core diff (chainBank .epb diff (chainBank .hbm diff (chainBank .port diff c))) with chain := v }

/-- A write of COUNTERS.CLEAR, ignored in confidential mode (R472). -/
def clearWrite (v : Nat) (s : State) : State :=
  if s.sealCore.conf then s
  else s.modCnt fun c =>
    { c with core := if bit v 0 then [] else c.core, epb := if bit v 1 then [] else c.epb,
             hbm := if bit v 2 then [] else c.hbm }

/-! ### Snapshots (R473) -/

/-- A snapshot request: ignored while BUSY, and one that names no island asks for nothing. -/
def snapWrite (islands : Nat) (s : State) : State :=
  if s.cnt.busy || islands % 16 = 0 then s else s.modCnt fun c => { c with busy := true, todo := islands % 16 }

/-- The counters of an island: compute, endpoint, switch, HBM. -/
def islandKind (i : Nat) : CKind :=
  match i with
  | 0 => .core
  | 1 => .epb
  | 2 => .port
  | _ => .hbm

/-- The freeze strobe reaches an island, in the order of the islands requested. -/
def islandCopy (i : Nat) (s : State) : State :=
  let c := s.cnt
  if !c.busy || !bit c.todo i || c.todo % 2 ^ i != 0 then s
  else
    let k := islandKind i
    s.modCnt fun c => { c.setSnapBank k (c.bank k) with todo := c.todo - 2 ^ i, times := SMap.set 0 c.times i s.now }

/-- The snapshot ends once every requested island is copied. -/
def snapDone (s : State) : State :=
  if s.cnt.busy && s.cnt.todo = 0 then s.modCnt fun c => { c with busy := false, seq := (c.seq + 1) % 2 ^ 32 } else s

end Sys2Proof.Machine
end

