-- ==== Sys2Proof/Machine/CoreCtl.lean ====
section
/-! DEFINITION. Stopping and starting a core (05, R148, R172, R176; 06, R186 to R188, R201; 13, R371). -/
namespace Sys2Proof.Machine

/-- CLUSTER_c.CORE_STOP_k of a stopped core (R187). -/
def stopValue (cause pc slot code : Nat) : Nat := cause + fld 8 pc + fld 22 slot + fld 24 code + fld 63 1

def causeHalt : Nat := 0x00
def causeIllegalOp : Nat := 0x01
def causeIllegalBundle : Nat := 0x02
def causeBounds : Nat := 0x03
def causeAlign : Nat := 0x04
def causeIfetch : Nat := 0x05
def causeOperand : Nat := 0x06
def causeSync : Nat := 0x07
def causeTrap : Nat := 0x08
def causeParity : Nat := 0x09

/-- Status of a stop cause in the fault record (R187). -/
def stopStatus (cause : Nat) : Nat :=
  if cause = causeHalt || cause = causeTrap then stOk
  else if cause = causeBounds || cause = causeIfetch then stBounds
  else if cause = causeParity then stUncorrected
  else stMalformed

/-- Does the ring's control command name the core? The mask stands in byte 9, the cluster in byte 8 (R370). -/
def namesCore (e : List Byte) (c k : Nat) : Bool := leAt e 8 1 % 16 == c && bit (leAt e 9 1) k

def namedCores (e : List Byte) : List Nat := bitsOf 8 (leAt e 9 1)

/-- CORE_START and CORE_STOP complete when every core they name has issued, or has halted (R371, assumption 36). -/
def settleCore (x : Nat) (q : CtlCmd) (s : State) : State :=
  let c := leAt q.entry 8 1 % 16
  let cores := namedCores q.entry
  if q.phase == .queued then s
  else if entOpcode q.entry = 0x46 && cores.all (fun k => (s.core c k).issued) then finishCtl x q.ring q.index stOk 0 s
  else if entOpcode q.entry = 0x47 && cores.all (fun k => (s.core c k).run == .halted) then
    finishCtl x q.ring q.index stOk 0 s
  else s

def settleCores (s : State) : State :=
  forEach [0, 1] (fun x s => forEach (s.host x).ctl (settleCore x) s) s

/-- The port a core's stop is reported to (R371). -/
def stopPort (s : State) (c k : Nat) : Nat :=
  let x := (s.core c k).startPort
  if (s.host x).linkUp then x else s.mainPort

/-- The core halts: CORE_STOP_k is written, and the record and the event of its cause (R186, R371). -/
def haltCore (c k v : Nat) (way : StopWay) (s : State) : State :=
  let s := s.modCore c k fun x => { x with run := .halted, stop := v, issued := true }
  let x := stopPort s c k
  let unit := c + 16 * k
  let from_ := (s.core c k).startPort
  let record := fun s => faultRecord x (mkRecord s 0x02 (stopStatus (v % 256)) 6 from_ unit [] (leBytes 8 v)) s
  let event := fun s => eventRecord x (mkRecord s 0x01 0 6 from_ unit [] (leBytes 8 v)) s
  settleCores (match way with
    | .fault => record s
    | .halt => event (record s)
    | .command => event s
    | .fence => s)

/-- A core stops once its earlier matrix operations are complete; one that has halted stays as it is (R186, R371). -/
def stopCore (c k v : Nat) (way : StopWay) (s : State) : State :=
  let x := s.core c k
  match x.run with
  | .halted => s
  | .stopping _ _ => s
  | .running => if x.matrix.isEmpty then haltCore c k v way s else s.modCore c k fun x => { x with run := .stopping v way }
  | .held => if x.matrix.isEmpty then haltCore c k v way s else s.modCore c k fun x => { x with run := .stopping v way }
  | .waiting _ =>
    if x.matrix.isEmpty then haltCore c k v way s else s.modCore c k fun x => { x with run := .stopping v way }
  | .waking => if x.matrix.isEmpty then haltCore c k v way s else s.modCore c k fun x => { x with run := .stopping v way }

/-- Armed commands of a core that have not started complete TORN_DOWN (R176). -/
def dropArmed (c k : Nat) (s : State) : State :=
  forEach (List.range 8) (fun t s => forEach (s.te c t).queue (fun q s =>
    match q.phase, q.origin with
    | .armed _, .core cc kk _ _ _ _ => if cc = c && kk = k then endCmd c t q.id stTornDown s else s
    | _, _ => s) s) s

/-- Start a core at a bundle (R171, R188, R201, R371); a domain in DOZE or PARK wakes first (R385). -/
def startCore (x c pc k : Nat) (s : State) : State :=
  let full := (s.domain (coreDom c k)).awake
  let now := s.now
  (dropArmed c k s).modCore c k fun y =>
    { y with run := if full then .running else .waking, pc := pc, stop := 0, parStop := false, cc := [], teErr := [],
             tokens := [], wake := false, watch := none, started := now, gen := y.gen + 1, startPort := x, released := 0,
             loaded := [], barIn := false, issued := false }

end Sys2Proof.Machine
end

