-- ==== Sys2Proof/Machine/Operands.lean ====
section
/-! DEFINITION. The operands of the compute cores: the encodings of the four slots (06, R178 to R185, R189, R193, R195 to
R197, the X-slot table), and the registers, tiles and memories they name (R183, R190, R191). -/
namespace Sys2Proof.Machine

/-! ### Operations of the four slots -/

/-- Scalar operations of two sources, in the order of their codes from 0x01. -/
inductive AluOp where
  | add | sub | and | or | xor | sll | srl | sra | slt | sltu | min | max | minu | maxu
  deriving DecidableEq, Repr

/-- The three products, from 0x0F. -/
inductive MulOp where
  | mul | mulhu | mulh
  deriving DecidableEq, Repr

/-- Scalar FP32 arithmetic, from 0x50. -/
inductive FpOp where
  | add | sub | mul | fma | min | max
  deriving DecidableEq, Repr

/-- Relations of FP32 compares, from 0x56 and in the V slot from 0x26. -/
inductive FRel where
  | eq | lt | le
  deriving DecidableEq, Repr

/-- Predicate logic, from 0x62. -/
inductive PredOp where
  | and | or | xor | andn
  deriving DecidableEq, Repr

/-- Relations of branches, from 0x70. -/
inductive BrRel where
  | eq | ne | lt | ge | ltu | geu
  deriving DecidableEq, Repr

/-- An S-slot operation; registers by number, immediates as encoded. -/
inductive SOp where
  | nop
  | alu (o : AluOp) (d a b : Nat)
  | mul (o : MulOp) (d a b : Nat)
  | sel (d a b c : Nat)
  | alui (o : AluOp) (d a imm : Nat)
  | mov16 (z : Bool) (d q imm : Nat)
  | ld (pool : Bool) (size : Nat) (sext : Bool) (d a imm : Nat)
  | st (pool : Bool) (size : Nat) (d a imm : Nat)
  | fp (o : FpOp) (d a b c : Nat)
  | fcmp (o : FRel) (d a b : Nat)
  | fcvtI (d a : Nat)
  | icvtF (d a : Nat)
  | pset (p a : Nat)
  | pget (a p : Nat)
  | plog (o : PredOp) (d a b : Nat)
  | pcnt (a p : Nat)
  | br (o : BrRel) (a b off : Nat)
  | bp (none : Bool) (p off : Nat)
  | j (target : Nat)
  | jal (d target : Nat)
  | jr (a : Nat)
  | trap (code : Nat)
  | csRd (d i : Nat)
  | csWr (a i : Nat)
  | wait
  | halt
  deriving DecidableEq, Repr

/-- Vector integer operations, from 0x01. -/
inductive VIntOp where
  | add | sub | mul | and | or | xor | sll | srl | sra
  deriving DecidableEq, Repr

/-- Vector integer minimum and maximum, from 0x0A. -/
inductive VMinOp where
  | min | max | minu | maxu
  deriving DecidableEq, Repr

/-- Vector integer compares, from 0x10. -/
inductive VRel where
  | eq | lt | ltu
  deriving DecidableEq, Repr

/-- Horizontal reductions, from 0x40. -/
inductive VRed where
  | sum | max | min
  deriving DecidableEq, Repr

/-- A V-slot operation, without its predicate. -/
inductive VOp where
  | int (o : VIntOp) (d a b : Nat)
  | imin (o : VMinOp) (d a b : Nat)
  | icmp (o : VRel) (p a b : Nat)
  | sel (d a b p : Nat)
  | fp (o : FpOp) (d a b c : Nat)
  | fmin (max : Bool) (d a b : Nat)
  | fcmp (o : FRel) (p a b : Nat)
  | div (d a b : Nat)
  | sqrt (d a : Nat)
  | exp (d a : Nat)
  | expd (d a b : Nat)
  | fcvtI (d a : Nat)
  | icvtF (d a : Nat)
  | narrow (half sat : Bool) (d a : Nat)
  | widen (half : Bool) (d a : Nat)
  | red (o : VRed) (d a : Nat)
  | tmax (d a t : Nat)
  | texp (a t : Nat)
  | tsum (d t : Nat)
  | tget (d t a : Nat)
  | tput (v t a : Nat)
  | ld (pool : Bool) (d a imm : Nat)
  | ldbc (pool : Bool) (d a imm : Nat)
  | st (pool : Bool) (v a imm : Nat)
  | mov (d a : Nat)
  | ext (d v lane : Nat)
  deriving DecidableEq, Repr

/-- A V-slot word: its operation and its predicate, if it has one. -/
structure VWord where
  op   : VOp
  pred : Option Nat
  deriving DecidableEq, Repr

/-- The formats of an mma, from 0x10 (R155, R195). -/
inductive MmaFmt where
  | e4m3 | e5m2 | e4m3e5m2 | i8 | mxfp8e4m3 | mxfp8e5m2 | mxfp6e2m3 | mxfp6e3m2 | e2m1 | mxfp4 | bf16 | f16
  deriving DecidableEq, Repr

/-- An M-slot operation. -/
inductive MOp where
  | mma (f : MmaFmt) (t a b m : Nat) (z ex : Bool)
  | mscale (t v : Nat)
  | mst (t a fmt : Nat) (sat : Bool) (tok : Option Nat)
  | wst (t a : Nat) (tok : Option Nat)
  | wld (t a : Nat)
  | wcvt (t w : Nat) (tok : Option Nat)
  deriving DecidableEq, Repr

/-- An X-slot operation. -/
inductive XOp where
  | issue (q a : Nat) (wake : Bool)
  | arm (q a token : Nat) (wake : Bool)
  | xissue (q a clu : Nat) (wake : Bool)
  | cnt (a i : Nat)
  | err (a i : Nat)
  | wait (a i : Nat)
  | rel (scope : Nat)
  | acq (scope : Nat)
  | barCfg (b a : Nat)
  | barArrive (b : Nat)
  | barWait (b : Nat)
  | barSync (b : Nat)
  | fwait (a b c p cond : Nat) (pool : Bool)
  | wake (core : Nat)
  | watch (a : Nat)
  deriving DecidableEq, Repr

/-- A bundle (R178); an empty slot holds its no-operation. -/
structure Bundle where
  s : SOp
  v : Option VWord
  m : Option MOp
  x : Option XOp
  deriving DecidableEq, Repr

/-! ### Decoding (R179, R182) -/

/-- Are the bits [hi:lo] of a word zero, as an unused or reserved field must be (R182)? -/
def zeroIn (w hi lo : Nat) : Bool := bits w hi lo == 0

/-- An operation, if its unused fields are zero. -/
def ifZero {α : Type} (ok : Bool) (a : α) : Option α := if ok then some a else none

/-- Scalar operations by code. -/
def aluOps : List AluOp := [.add, .sub, .and, .or, .xor, .sll, .srl, .sra, .slt, .sltu, .min, .max, .minu, .maxu]
/-- Immediate operations, from 0x20: addi, andi, ori, xori, slli, srli, srai, slti, sltiu. -/
def aluiOps : List AluOp := [.add, .and, .or, .xor, .sll, .srl, .sra, .slt, .sltu]
/-- Loads, from 0x30 and 0x38: size and sign extension. -/
def ldForms : List (Nat × Bool) := [(1, true), (1, false), (2, true), (2, false), (4, true), (4, false), (8, false)]
/-- Stores, from 0x40 and 0x44. -/
def stSizes : List Nat := [1, 2, 4, 8]
def fpOps : List FpOp := [.add, .sub, .mul, .fma, .min, .max]
def fRels : List FRel := [.eq, .lt, .le]
def predOps : List PredOp := [.and, .or, .xor, .andn]
def brRels : List BrRel := [.eq, .ne, .lt, .ge, .ltu, .geu]

def AluOp.isShift : AluOp → Bool
  | .sll | .srl | .sra => true
  | .add | .sub | .and | .or | .xor | .slt | .sltu | .min | .max | .minu | .maxu => false

/-- The S word (R179, R189): none for an undefined encoding. -/
def decodeS (w : Nat) : Option SOp :=
  let o := w % 256
  let d := bits w 13 8
  let a := bits w 19 14
  let b := bits w 25 20
  let c := bits w 31 26
  let imm := bits w 31 20
  let pd := bits w 10 8
  let pa := bits w 13 11
  let pb := bits w 16 14
  let sa := bits w 22 17
  if w = 0 then some .nop
  else if 0x01 ≤ o && o ≤ 0x0E then (aluOps[o - 0x01]?).bind fun f => ifZero (c = 0) (.alu f d a b)
  else if o = 0x0F then ifZero (c = 0) (.mul .mul d a b)
  else if o = 0x10 then ifZero (c = 0) (.mul .mulhu d a b)
  else if o = 0x11 then ifZero (c = 0) (.mul .mulh d a b)
  else if o = 0x12 then some (.sel d a b c)
  else if 0x20 ≤ o && o ≤ 0x28 then
    (aluiOps[o - 0x20]?).bind fun f => ifZero (!f.isShift || bits imm 11 6 = 0) (.alui f d a imm)
  else if o = 0x2C || o = 0x2D then some (.mov16 (o = 0x2D) d (bits w 15 14) (bits w 31 16))
  else if 0x30 ≤ o && o ≤ 0x36 then (ldForms[o - 0x30]?).map fun f => .ld false f.1 f.2 d a imm
  else if 0x38 ≤ o && o ≤ 0x3E then (ldForms[o - 0x38]?).map fun f => .ld true f.1 f.2 d a imm
  else if 0x40 ≤ o && o ≤ 0x43 then (stSizes[o - 0x40]?).map fun n => .st false n d a imm
  else if 0x44 ≤ o && o ≤ 0x47 then (stSizes[o - 0x44]?).map fun n => .st true n d a imm
  else if 0x50 ≤ o && o ≤ 0x55 then
    (fpOps[o - 0x50]?).bind fun f => ifZero (f = .fma || c = 0) (.fp f d a b c)
  else if 0x56 ≤ o && o ≤ 0x58 then (fRels[o - 0x56]?).bind fun f => ifZero (c = 0) (.fcmp f d a b)
  else if o = 0x59 then ifZero (b = 0 && c = 0) (.fcvtI d a)
  else if o = 0x5A then ifZero (b = 0 && c = 0) (.icvtF d a)
  else if o = 0x60 then ifZero (pa = 0 && pb = 0 && zeroIn w 31 23) (.pset pd sa)
  else if o = 0x61 then ifZero (pd = 0 && pb = 0 && zeroIn w 31 23) (.pget sa pa)
  else if 0x62 ≤ o && o ≤ 0x65 then (predOps[o - 0x62]?).bind fun f => ifZero (zeroIn w 31 17) (.plog f pd pa pb)
  else if o = 0x66 then ifZero (pd = 0 && pb = 0 && zeroIn w 31 23) (.pcnt sa pa)
  else if 0x70 ≤ o && o ≤ 0x75 then (brRels[o - 0x70]?).map fun f => .br f d a imm
  else if o = 0x76 || o = 0x77 then ifZero (zeroIn w 19 11) (.bp (o = 0x77) pd imm)
  else if o = 0x78 then ifZero (d = 0 && zeroIn w 31 28) (.j (bits w 27 14))
  else if o = 0x79 then ifZero (zeroIn w 31 28) (.jal d (bits w 27 14))
  else if o = 0x7A then ifZero (d = 0 && b = 0 && c = 0) (.jr a)
  else if o = 0x7B then ifZero (d = 0 && a = 0) (.trap imm)
  else if o = 0x7C then ifZero (a = 0) (.csRd d imm)
  else if o = 0x7D then ifZero (d = 0) (.csWr a imm)
  else if o = 0x7E then ifZero (zeroIn w 31 8) .wait
  else if o = 0x7F then ifZero (zeroIn w 31 8) .halt
  else none

def vIntOps : List VIntOp := [.add, .sub, .mul, .and, .or, .xor, .sll, .srl, .sra]
def vMinOps : List VMinOp := [.min, .max, .minu, .maxu]
def vRels : List VRel := [.eq, .lt, .ltu]
def vFpOps : List FpOp := [.add, .sub, .mul, .fma]
def vReds : List VRed := [.sum, .max, .min]

/-- The operation of a V word (R193); the outer option is an undefined encoding. -/
def decodeVOp (w : Nat) : Option VOp :=
  let o := w % 256
  let d := bits w 12 8
  let a := bits w 17 13
  let b := bits w 22 18
  let c := bits w 27 23
  -- VM
  let ma := bits w 18 13
  let imm := bits w 26 19
  let pool := bit w 27
  -- VT
  let t := bits w 19 18
  let ta := bits w 25 20
  let noPe := !bit w 31
  if 0x01 ≤ o && o ≤ 0x09 then (vIntOps[o - 0x01]?).bind fun f => ifZero (c = 0) (.int f d a b)
  else if 0x0A ≤ o && o ≤ 0x0D then (vMinOps[o - 0x0A]?).bind fun f => ifZero (c = 0) (.imin f d a b)
  else if 0x10 ≤ o && o ≤ 0x12 then (vRels[o - 0x10]?).bind fun f => ifZero (c = 0 && d < 8) (.icmp f d a b)
  else if o = 0x13 then ifZero (c < 8) (.sel d a b c)
  else if 0x20 ≤ o && o ≤ 0x23 then (vFpOps[o - 0x20]?).bind fun f => ifZero (f = .fma || c = 0) (.fp f d a b c)
  else if o = 0x24 || o = 0x25 then ifZero (c = 0) (.fmin (o = 0x25) d a b)
  else if 0x26 ≤ o && o ≤ 0x28 then (fRels[o - 0x26]?).bind fun f => ifZero (c = 0 && d < 8) (.fcmp f d a b)
  else if o = 0x29 then ifZero (c = 0) (.div d a b)
  else if o = 0x2A then ifZero (b = 0 && c = 0) (.sqrt d a)
  else if o = 0x2B then ifZero (b = 0 && c = 0) (.exp d a)
  else if o = 0x2C then ifZero (c = 0) (.expd d a b)
  else if o = 0x30 then ifZero (b = 0 && c = 0) (.fcvtI d a)
  else if o = 0x31 then ifZero (b = 0 && c = 0) (.icvtF d a)
  else if 0x32 ≤ o && o ≤ 0x35 then ifZero (b = 0 && c = 0) (.narrow (0x34 ≤ o) (o % 2 = 1) d a)
  else if o = 0x36 || o = 0x37 then ifZero (b = 0 && c = 0) (.widen (o = 0x37) d a)
  else if 0x40 ≤ o && o ≤ 0x42 then (vReds[o - 0x40]?).bind fun f => ifZero (b = 0 && c = 0) (.red f d a)
  else if o = 0x48 then ifZero (ta = 0 && zeroIn w 27 26 && noPe) (.tmax d a t)
  else if o = 0x49 then ifZero (d = 0 && ta = 0 && zeroIn w 27 26 && noPe) (.texp a t)
  else if o = 0x4A then ifZero (a = 0 && ta = 0 && zeroIn w 27 26 && noPe) (.tsum d t)
  else if o = 0x4B then ifZero (a = 0 && zeroIn w 27 26) (.tget d t ta)
  else if o = 0x4C then ifZero (d = 0 && zeroIn w 27 26) (.tput a t ta)
  else if o = 0x50 then some (.ld pool d ma imm)
  else if o = 0x51 then some (.ldbc pool d ma imm)
  else if o = 0x52 then some (.st pool d ma imm)
  else if o = 0x58 then ifZero (imm = 0 && !pool) (.mov d ma)
  else none

/-- The V word: some none for the no-operation, none for an undefined encoding (R184, R193). -/
def decodeV (w : Nat) : Option (Option VWord) :=
  if w = 0 then some none
  else if w % 256 = 0x59 then
    ifZero (zeroIn w 31 25) (some { op := .ext (bits w 13 8) (bits w 18 14) (bits w 24 19), pred := none })
  else if !bit w 31 && !zeroIn w 30 28 then none
  else (decodeVOp w).map fun o => some { op := o, pred := if bit w 31 then some (bits w 30 28) else none }

def mmaFmts : List MmaFmt :=
  [.e4m3, .e5m2, .e4m3e5m2, .i8, .mxfp8e4m3, .mxfp8e5m2, .mxfp6e2m3, .mxfp6e3m2, .e2m1, .mxfp4, .bf16, .f16]

/-- The M word (R195 to R197). -/
def decodeM (w : Nat) : Option (Option MOp) :=
  let o := w % 256
  let t := bits w 9 8
  let a := bits w 15 10
  let fmt := bits w 19 16
  let sat := bit w 20
  let tok := if bit w 21 then some (bits w 25 22) else none
  let noTok := zeroIn w 25 21
  let t2 := bits w 27 26
  let ok := zeroIn w 31 28
  if w = 0 then some none
  else if 0x10 ≤ o && o ≤ 0x1B then
    (mmaFmts[o - 0x10]?).bind fun f =>
      ifZero (zeroIn w 31 30 && (o < 0x1A || !bit w 29))
        (some (.mma f t a (bits w 21 16) (bits w 27 22) (bit w 28) (bit w 29)))
  else if o = 0x20 then ifZero (ok && a < 32 && fmt = 0 && !sat && noTok && t2 = 0) (some (.mscale t a))
  else if o = 0x21 then
    ifZero (ok && fmt < 0xE && (!sat || fmt = 1 || fmt = 2) && t2 = 0) (some (.mst t a fmt sat tok))
  else if o = 0x22 then ifZero (ok && fmt = 0 && !sat && t2 = 0) (some (.wst t a tok))
  else if o = 0x23 then ifZero (ok && fmt = 0 && !sat && noTok && t2 = 0) (some (.wld t a))
  else if o = 0x24 then ifZero (ok && a = 0 && fmt = 0 && !sat) (some (.wcvt t t2 tok))
  else none

/-- The counter a te.cnt, te.err or te.wait names: 0 to 7, or 8 for CCX (R199). -/
def ccIndex (q : Nat) (x : Bool) : Nat := if x then 8 else q

/-- The X word. -/
def decodeX (w : Nat) : Option (Option XOp) :=
  let o := w % 256
  let q := bits w 10 8
  let a := bits w 16 11
  let wake := bit w 17
  let token := bits w 21 18
  let clu := bits w 25 22
  let xt := zeroIn w 31 26
  let x := bit w 17
  let xc := zeroIn w 31 18 && (!x || q = 0)
  let scope := bits w 9 8
  let bar := bits w 13 10
  let sa := bits w 19 14
  let core := bits w 22 20
  let xs := zeroIn w 31 23
  if w = 0 then some none
  else if o = 0x01 then ifZero (xt && token = 0 && clu = 0) (some (.issue q a wake))
  else if o = 0x02 then ifZero (xt && clu = 0) (some (.arm q a token wake))
  else if o = 0x03 then ifZero xc (some (.cnt a (ccIndex q x)))
  else if o = 0x04 then ifZero xc (some (.err a (ccIndex q x)))
  else if o = 0x05 then ifZero xc (some (.wait a (ccIndex q x)))
  else if o = 0x06 then ifZero (xt && token = 0) (some (.xissue q a clu wake))
  else if o = 0x10 then ifZero (xs && bar = 0 && sa = 0 && core = 0) (some (.rel scope))
  else if o = 0x11 then ifZero (xs && bar = 0 && sa = 0 && core = 0) (some (.acq scope))
  else if o = 0x18 then ifZero (xs && scope = 0 && core = 0) (some (.barCfg bar sa))
  else if o = 0x19 then ifZero (xs && scope = 0 && sa = 0 && core = 0) (some (.barArrive bar))
  else if o = 0x1A then ifZero (xs && scope = 0 && sa = 0 && core = 0) (some (.barWait bar))
  else if o = 0x1B then ifZero (xs && scope = 0 && sa = 0 && core = 0) (some (.barSync bar))
  else if o = 0x20 then
    some (some (.fwait (bits w 13 8) sa (bits w 25 20) (bits w 28 26) (bits w 30 29) (bit w 31)))
  else if o = 0x28 then ifZero (xs && scope = 0 && bar = 0 && sa = 0) (some (.wake core))
  else if o = 0x29 then ifZero (xs && scope = 0 && bar = 0 && core = 0) (some (.watch sa))
  else none

/-- A bundle from its 128 bits, or the first slot with an undefined encoding (R178, R186). -/
def decodeBundle (n : Nat) : Except Nat Bundle :=
  match decodeS (bits n 31 0), decodeV (bits n 63 32), decodeM (bits n 95 64), decodeX (bits n 127 96) with
  | none, _, _, _ => .error 0
  | some _, none, _, _ => .error 1
  | some _, some _, none, _ => .error 2
  | some _, some _, some _, none => .error 3
  | some s, some v, some m, some x => .ok { s := s, v := v, m := m, x := x }

/-! ### Registers (R183) -/

/-- A scalar register; s0 reads as zero. -/
def Core.sreg (x : Core) (i : Nat) : Nat := if i = 0 then 0 else SMap.get 0 x.s i

/-- Write a scalar register; a write to s0 is discarded. -/
def Core.setS (i v : Nat) (x : Core) : Core := if i = 0 then x else { x with s := SMap.set 0 x.s i (v % 2 ^ 64) }

def Core.preg (x : Core) (i : Nat) : Nat := SMap.get 0 x.p i
def Core.setP (i v : Nat) (x : Core) : Core := { x with p := SMap.set 0 x.p i (v % 2 ^ 64) }

/-- Lane `l` of vector register `r`. -/
def Core.lane (x : Core) (r l : Nat) : Nat := SMap.get 0 x.v (64 * r + l)

/-- Write the lanes of a vector register that a mask names (R184). -/
def Core.setV (r mask : Nat) (f : Nat → Nat) (x : Core) : Core :=
  let put := fun (m : SMap Nat) (l : Nat) => if bit mask l then SMap.set 0 m (64 * r + l) (f l % 2 ^ 32) else m
  { x with v := (List.range 64).foldl put x.v }

/-- Every lane. -/
def allLanes : Nat := 2 ^ 64 - 1

/-- The lanes an operation acts on (R184). -/
def Core.mask (x : Core) (p : Option Nat) : Nat :=
  match p with
  | none => allLanes
  | some i => x.preg i

/-- Accumulator and wide tiles. -/
def Core.acc (x : Core) (t : Nat) : Tile := SMap.get [] x.a t
def Core.setAcc (t : Nat) (v : Tile) (x : Core) : Core := { x with a := SMap.set [] x.a t v }
def Core.wide (x : Core) (t : Nat) : Tile := SMap.get [] x.w t
def Core.setWide (t : Nat) (v : Tile) (x : Core) : Core := { x with w := SMap.set [] x.w t v }

/-- An element of a tile. -/
def Tile.el (t : Tile) (i j : Nat) : Nat := SMap.get 0 t (64 * i + j)

/-- A tile from its elements. -/
def tileOf (f : Nat → Nat → Nat) : Tile :=
  (List.range 4096).filterMap fun n => let v := f (n / 64) (n % 64); if v = 0 then none else some (n, v)

/-! ### Immediates and addresses -/

/-- IMM12 or OFF12, sign-extended to 64 bits. -/
def imm12 (imm : Nat) : Nat := ofInt 64 (toSigned 12 imm)

/-- A scalar memory address: sA + IMM12 modulo 2^64 (R190). -/
def saddr (x : Core) (a imm : Nat) : Nat := (x.sreg a + imm12 imm) % 2 ^ 64

/-- A vector memory address: sA + unit × IMM8 modulo 2^64 (R193, R194). -/
def vaddr (x : Core) (a imm unit : Nat) : Nat :=
  (x.sreg a + ofInt 64 (toSigned 8 imm * (unit : Nat))) % 2 ^ 64

/-- The size of the scratchpad or of the pool. -/
def spaceBytes (pool : Bool) : Nat := if pool then poolBytes else spmBytes

/-! ### Core accesses to the scratchpad and the pool (R133, R148, R190, R191) -/

/-- The bytes of the scratchpad or the pool. -/
def coreBytes (s : State) (c k : Nat) (pool : Bool) (a n : Nat) : List Byte :=
  if pool then (s.cluster c).pool.readN a n else (s.core c k).spm.readN a n

/-- Does a read meet an error the code cannot correct (R148)? -/
def coreBad (s : State) (c k : Nat) (pool : Bool) (a n : Nat) : Bool :=
  (wordsOf a n).any fun w => if pool then (s.cluster c).poolBad.contains w else (s.core c k).spmBad.contains w

/-- What a load leaves behind: its count, and the scope records of the pool granules it read (R132, R468). -/
def coreLoaded (c k : Nat) (pool : Bool) (a n : Nat) (s : State) : State :=
  let s := countCore c k (if pool then 33 else 31) (cdiv n 64) s
  if !pool then s
  else
    let s := wakeDomain (poolDom c) s
    let rs := (s.cluster c).scopes.filter fun r => a / 64 ≤ r.granule && r.granule ≤ (a + n - 1) / 64
    s.modCore c k fun x => { x with loaded := x.loaded ++ rs.filter fun r => !x.loaded.contains r }

/-- A core's store. The pool's scope records keep the core and the release before it (R132). -/
def coreStore (c k : Nat) (pool : Bool) (a : Nat) (bs : List Byte) (s : State) : State :=
  let n := bs.length
  let s := countCore c k (if pool then 34 else 32) (cdiv n 64) s
  if pool then
    let r := (s.core c k).released
    noteScope c a n (if r = 0 then none else some (k, r - 1))
      ((wakeDomain (poolDom c) s).modCluster c (Cluster.poolPut a bs))
  else s.modCore c k (Core.spmPut a bs)

end Sys2Proof.Machine
end

