-- ==== Sys2Proof/Machine/Flags.lean ====
section
/-! DEFINITION. The conditions a core's operations compute: the sticky bits of ASTAT (R153, R159, R162, R175), relations,
and predicate results (R184, R189, R193, R203). -/
namespace Sys2Proof.Machine

/-- What an operation adds to ASTAT. -/
structure Sticky where
  range : Bool
  sat   : Bool
  nan   : Bool
  deriving DecidableEq, Repr

def Sticky.none : Sticky := { range := false, sat := false, nan := false }

def Sticky.or (a b : Sticky) : Sticky :=
  { range := a.range || b.range, sat := a.sat || b.sat, nan := a.nan || b.nan }

/-- The sticky bits of a narrowing conversion (R153). -/
def Narrowed.sticky (n : Narrowed) : Sticky := { range := false, sat := n.sat, nan := n.nan }

/-- Sticky bits stay set until the core clears them; the operation that sets EXACT_RANGE is counted (R175, R468). -/
def stick (c k : Nat) (f : Sticky) (s : State) : State :=
  let s := if f.range then countCore c k 47 1 s else s
  s.modCore c k fun x =>
    { x with exactRange := x.exactRange || f.range, sat := x.sat || f.sat, nan := x.nan || f.nan }

/-- Bits [3:0] of ASTAT. -/
def astatBits (x : Core) : Nat := b2n x.exactRange + fld 1 (b2n x.sat) + fld 2 (b2n x.nan) + fld 3 (b2n x.parStop)

/-- Each 1 in bits [2:0] clears that sticky bit (R192). -/
def clearAstat (v : Nat) (x : Core) : Core :=
  { x with exactRange := x.exactRange && !bit v 0, sat := x.sat && !bit v 1, nan := x.nan && !bit v 2 }

/-! ### Relations -/

def BrRel.holds (r : BrRel) (a b : Nat) : Bool :=
  match r with
  | .eq => a == b
  | .ne => a != b
  | .lt => toSigned 64 a < toSigned 64 b
  | .ge => toSigned 64 b ≤ toSigned 64 a
  | .ltu => a < b
  | .geu => b ≤ a

/-- FP32 relations; a NaN operand gives 0 (R189, R193). -/
def FRel.holds (r : FRel) (a b : Nat) : Bool :=
  let x := Fmt.f32.decode a
  let y := Fmt.f32.decode b
  match r with
  | .eq => x.eq y
  | .lt => x.lt y
  | .le => x.lt y || x.eq y

def VRel.holds (r : VRel) (a b : Nat) : Bool :=
  match r with
  | .eq => a == b
  | .lt => toSigned 32 a < toSigned 32 b
  | .ltu => a < b

/-- COND of fwait (R203). -/
def condHolds (cond w v : Nat) : Bool :=
  match cond with
  | 0 => w == v
  | 1 => w != v
  | 2 => v ≤ w
  | _ => w < v

/-! ### Predicate results -/

/-- Predicate bits from a test of each lane; lanes outside the mask keep theirs (R184). -/
def predOf (mask old : Nat) (f : Nat → Bool) : Nat := maskOf (filterBelow 64 fun l => if bit mask l then f l else bit old l)

def PredOp.eval (o : PredOp) (a b : Nat) : Nat :=
  match o with
  | .and => a &&& b
  | .or => a ||| b
  | .xor => a ^^^ b
  | .andn => a &&& (allLanes ^^^ b)

/-- Set bits of a predicate. -/
def popcount (v : Nat) : Nat := (bitsOf 64 v).length

end Sys2Proof.Machine
end

