-- ==== Sys2Proof/Machine/CoreScalar.lean ====
section
/-! DEFINITION. What the S-slot operations compute and write (06, R189 to R192). -/
namespace Sys2Proof.Machine

/-- A scalar operation of two 64-bit sources, modulo 2^64; shifts use the low six bits (R189). -/
def AluOp.eval (o : AluOp) (a b : Nat) : Nat :=
  let sa := toSigned 64 a
  let sb := toSigned 64 b
  match o with
  | .add => (a + b) % 2 ^ 64
  | .sub => (a + 2 ^ 64 - b) % 2 ^ 64
  | .and => a &&& b
  | .or => a ||| b
  | .xor => a ^^^ b
  | .sll => a * 2 ^ (b % 64) % 2 ^ 64
  | .srl => a / 2 ^ (b % 64)
  | .sra => ofInt 64 (sa / ((2 ^ (b % 64) : Nat) : Int))
  | .slt => b2n (sa < sb)
  | .sltu => b2n (a < b)
  | .min => if sa < sb then a else b
  | .max => if sa < sb then b else a
  | .minu => Nat.min a b
  | .maxu => Nat.max a b

def MulOp.eval (o : MulOp) (a b : Nat) : Nat :=
  match o with
  | .mul => a * b % 2 ^ 64
  | .mulhu => a * b / 2 ^ 64
  | .mulh => ofInt 64 (toSigned 64 a * toSigned 64 b / ((2 ^ 64 : Nat) : Int))

/-- FP32 arithmetic on the low 32 bits of its sources (R152, R183). -/
def FpOp.eval (o : FpOp) (a b c : Nat) : Nat :=
  let f := Fmt.f32
  match o with
  | .add => fadd f a b
  | .sub => fsub f a b
  | .mul => fmul f a b
  | .fma => ffma f a b c
  | .min => fminBits f a b
  | .max => fmaxBits f a b

/-- The low 32 bits of a scalar register. -/
def Core.s32 (x : Core) (i : Nat) : Nat := x.sreg i % 2 ^ 32

/-- A loaded value, extended to 64 bits. -/
def loadValue (sext : Bool) (bs : List Byte) : Nat :=
  if sext then ofInt 64 (toSigned (8 * bs.length) (leVal bs)) else leVal bs

/-- mov16 and mov16.z: 16-bit field Q. -/
def mov16Value (z : Bool) (old q imm : Nat) : Nat :=
  let lo := 16 * q
  (if z then 0 else old - bits old (lo + 15) lo * 2 ^ lo) + imm * 2 ^ lo

/-! ### Core status registers (R192) -/

/-- May cs.rd and cs.wr name the register? -/
def csReadable (i : Nat) : Bool := i ≤ 4 || (0x100 ≤ i && i ≤ 0x12F)
def csWritable (i : Nat) : Bool := i ≤ 1

/-- Node number of a core's endpoint; zero until GLOBAL.SLOT.VALID is set. -/
def coreNode (s : State) (c : Nat) : Nat := if s.glob.slotValid then 16 * s.glob.slot + c else 0

/-- A read of a core status register. -/
def csValue (s : State) (c k i : Nat) : Nat :=
  let x := s.core c k
  if i = 0 then x.cmode
  else if i = 1 then astatBits x
  else if i = 2 then (s.now - x.started) * 9 / 5
  else if i = 3 then k + fld 3 c + fld 7 (coreNode s c)
  else if i = 4 then b2n x.wake
  else if bit s.cnt.user c && !s.sealCore.conf then counterWord s .core false (8 * c + k) (i - 0x100)
  else 0

/-- A write of CMODE or ASTAT; a MODE of 0b11 leaves it unchanged (R171). -/
def csWrite (i v : Nat) (x : Core) : Core :=
  if i = 0 then (if v % 4 = 3 then x else { x with cmode := v % 4 }) else clearAstat v x

/-! ### Effects -/

/-- What an S-slot operation writes, its sources read in the state at issue (R143). Where the bundle goes next is not its
part. -/
def sEffect (c k : Nat) (s0 : State) (op : SOp) (s : State) : State :=
  let x := s0.core c k
  let put := fun (d v : Nat) => s.modCore c k (Core.setS d v)
  match op with
  | .nop => s
  | .alu o d a b => put d (o.eval (x.sreg a) (x.sreg b))
  | .mul o d a b => put d (o.eval (x.sreg a) (x.sreg b))
  | .sel d a b e => put d (if x.sreg e != 0 then x.sreg a else x.sreg b)
  | .alui o d a imm => put d (o.eval (x.sreg a) (imm12 imm))
  | .mov16 z d q imm => put d (mov16Value z (x.sreg d) q imm)
  | .ld pool size sext d a imm =>
    let o := saddr x a imm
    coreLoaded c k pool o size (put d (loadValue sext (coreBytes s0 c k pool o size)))
  | .st pool size d a imm => coreStore c k pool (saddr x a imm) (leBytes size (x.sreg d)) s
  | .fp o d a b e => put d (o.eval (x.s32 a) (x.s32 b) (x.s32 e))
  | .fcmp o d a b => put d (b2n (o.holds (x.s32 a) (x.s32 b)))
  | .fcvtI d a => put d (Fmt.f32.round (FV.ofInt (toSigned 64 (x.sreg a))))
  | .icvtF d a =>
    let r := FV.toIntSat 64 (Fmt.f32.decode (x.s32 a))
    stick c k (Narrowed.sticky r) (put d r.bits)
  | .pset p a => s.modCore c k (Core.setP p (x.sreg a))
  | .pget a p => put a (x.preg p)
  | .plog o d a b => s.modCore c k (Core.setP d (o.eval (x.preg a) (x.preg b)))
  | .pcnt a p => put a (popcount (x.preg p))
  | .br _ _ _ _ => s
  | .bp _ _ _ => s
  | .j _ => s
  | .jal d _ => put d (x.pc + 1)
  | .jr _ => s
  | .trap _ => s
  | .csRd d i => put d (csValue s0 c k i)
  | .csWr a i => s.modCore c k (csWrite i (x.sreg a))
  | .wait => s
  | .halt => s

/-- Where a branch or jump goes, if it is taken (R180, R189). -/
def branchTo (x : Core) (op : SOp) : Option Int :=
  let rel := fun (off : Nat) => (x.pc : Int) + toSigned 12 off
  match op with
  | .br o a b off => if o.holds (x.sreg a) (x.sreg b) then some (rel off) else none
  | .bp z p off => if (x.preg p == 0) == z then some (rel off) else none
  | .j t => some t
  | .jal _ t => some t
  | .jr a => some (x.sreg a)
  | .nop | .alu _ _ _ _ | .mul _ _ _ _ | .sel _ _ _ _ | .alui _ _ _ _ | .mov16 _ _ _ _ | .ld _ _ _ _ _ _ | .st _ _ _ _ _
  | .fp _ _ _ _ _ | .fcmp _ _ _ _ | .fcvtI _ _ | .icvtF _ _ | .pset _ _ | .pget _ _ | .plog _ _ _ _ | .pcnt _ _ | .trap _
  | .csRd _ _ | .csWr _ _ | .wait | .halt => none

end Sys2Proof.Machine
end

