-- ==== Sys2Proof/Machine/CoreVector.lean ====
section
/-! DEFINITION. What the V-slot operations compute and write (05, R164 to R166; 06, R184, R193, R194). -/
namespace Sys2Proof.Machine

/-- Integer lane arithmetic modulo 2^32; shifts use the low five bits. -/
def VIntOp.eval (o : VIntOp) (a b : Nat) : Nat :=
  match o with
  | .add => (a + b) % 2 ^ 32
  | .sub => (a + 2 ^ 32 - b) % 2 ^ 32
  | .mul => a * b % 2 ^ 32
  | .and => a &&& b
  | .or => a ||| b
  | .xor => a ^^^ b
  | .sll => a * 2 ^ (b % 32) % 2 ^ 32
  | .srl => a / 2 ^ (b % 32)
  | .sra => ofInt 32 (toSigned 32 a / ((2 ^ (b % 32) : Nat) : Int))

def VMinOp.eval (o : VMinOp) (a b : Nat) : Nat :=
  let sa := toSigned 32 a
  let sb := toSigned 32 b
  match o with
  | .min => if sa < sb then a else b
  | .max => if sa < sb then b else a
  | .minu => Nat.min a b
  | .maxu => Nat.max a b

/-! ### The canonical tree (R165) -/

/-- Combine neighbours, the lower index on the left. -/
def pairUp (f : Nat → Nat → Nat) : List Nat → List Nat
  | a :: b :: l => f a b :: pairUp f l
  | l => l

/-- The tree over 64 inputs: six levels. -/
def tree64 (f : Nat → Nat → Nat) (l : List Nat) : Nat :=
  ((pairUp f (pairUp f (pairUp f (pairUp f (pairUp f (pairUp f l)))))).head?).getD 0

/-- What a lane outside the predicate contributes (R184): −0, −infinity or +infinity. -/
def VRed.idle : VRed → Nat
  | .sum => 0x80000000
  | .max => 0xFF800000
  | .min => 0x7F800000

def VRed.op : VRed → Nat → Nat → Nat
  | .sum => fadd Fmt.f32
  | .max => fmaxBits Fmt.f32
  | .min => fminBits Fmt.f32

/-- exp(round(a − b)), and +0 where a is −infinity (R164). -/
def expDiff (a b : Nat) : Nat := if (Fmt.f32.decode a).isInf true then 0 else fexp (fsub Fmt.f32 a b)

/-- One element of vtexp: +0 where the row's maximum is −infinity (R166). -/
def texpElem (e m : Nat) : Nat := if (Fmt.f32.decode m).isInf true then 0 else fexp (fsub Fmt.f32 e m)

/-! ### Lane operations with sticky bits (R153) -/

/-- FP32 to BF16 or FP16. -/
def narrowLane (half sat : Bool) (a : Nat) : Narrowed :=
  (if half then Fmt.f16 else Fmt.bf16).narrow sat (Fmt.f32.decode a)

/-- FP32 to INT32. -/
def intLane (a : Nat) : Narrowed := FV.toIntSat 32 (Fmt.f32.decode a)

/-- Write a vector of conversions, and the sticky bits of the lanes that take part. -/
def convert (c k d mask : Nat) (f : Nat → Narrowed) (s : State) : State :=
  let s := s.modCore c k (Core.setV d mask fun l => (f l).bits)
  stick c k (((bitsOf 64 mask).map fun l => Narrowed.sticky (f l)).foldl Sticky.or Sticky.none) s

/-! ### Stores (R184) -/

/-- The bytes a store writes: pairs of lanes together, so that a whole word clears its error (R148). -/
def storePairs (c k : Nat) (pool : Bool) (a mask : Nat) (lane : Nat → Nat) (s : State) : State :=
  forEach (List.range 32) (fun j s =>
    let lo := leBytes 4 (lane (2 * j))
    let hi := leBytes 4 (lane (2 * j + 1))
    let put := fun (o : Nat) (bs : List Byte) (s : State) =>
      if pool then s.modCluster c (Cluster.poolPut o bs) else s.modCore c k (Core.spmPut o bs)
    match bit mask (2 * j), bit mask (2 * j + 1) with
    | true, true => put (a + 8 * j) (lo ++ hi) s
    | true, false => put (a + 8 * j) lo s
    | false, true => put (a + 8 * j + 4) hi s
    | false, false => s) s

/-- The lanes of the mask that fall in a granule of the pool are noted with the release before them (R132). -/
def storeVector (c k : Nat) (pool : Bool) (a mask : Nat) (lane : Nat → Nat) (s : State) : State :=
  let s := storePairs c k pool a mask lane (countCore c k (if pool then 34 else 32) 4 s)
  if !pool then s
  else
    let s := wakeDomain (poolDom c) s
    let r := (s.core c k).released
    forEach (List.range 4) (fun g s =>
      if bits mask (16 * g + 15) (16 * g) = 0 then s
      else noteScope c (a + 64 * g) 64 (if r = 0 then none else some (k, r - 1)) s) s

/-! ### Effects -/

/-- What a V-slot operation writes under its predicate, its sources read in the state at issue. -/
def vEffect (c k : Nat) (s0 : State) (w : VWord) (s : State) : State :=
  let x := s0.core c k
  let mask := x.mask w.pred
  let put := fun (d : Nat) (f : Nat → Nat) => s.modCore c k (Core.setV d mask f)
  let putAll := fun (d v : Nat) => s.modCore c k (Core.setV d allLanes fun _ => v)
  match w.op with
  | .int o d a b => put d fun l => o.eval (x.lane a l) (x.lane b l)
  | .imin o d a b => put d fun l => o.eval (x.lane a l) (x.lane b l)
  | .icmp o p a b => s.modCore c k (Core.setP p (predOf mask (x.preg p) fun l => o.holds (x.lane a l) (x.lane b l)))
  | .sel d a b p => put d fun l => if bit (x.preg p) l then x.lane a l else x.lane b l
  | .fp o d a b e => put d fun l => o.eval (x.lane a l) (x.lane b l) (x.lane e l)
  | .fmin mx d a b => put d fun l => (if mx then fmaxBits else fminBits) Fmt.f32 (x.lane a l) (x.lane b l)
  | .fcmp o p a b => s.modCore c k (Core.setP p (predOf mask (x.preg p) fun l => o.holds (x.lane a l) (x.lane b l)))
  | .div d a b => put d fun l => fdivBits Fmt.f32 (x.lane a l) (x.lane b l)
  | .sqrt d a => put d fun l => fsqrtBits Fmt.f32 (x.lane a l)
  | .exp d a => put d fun l => fexp (x.lane a l)
  | .expd d a b => put d fun l => expDiff (x.lane a l) (x.lane b l)
  | .fcvtI d a => put d fun l => Fmt.f32.round (FV.ofInt (toSigned 32 (x.lane a l)))
  | .icvtF d a => convert c k d mask (fun l => intLane (x.lane a l)) s
  | .narrow half sat d a => convert c k d mask (fun l => narrowLane half sat (x.lane a l)) s
  | .widen half d a =>
    put d fun l =>
      let f := if half then Fmt.f16 else Fmt.bf16
      Fmt.f32.round (f.decode (x.lane a l % 2 ^ 16))
  | .red o d a => putAll d (tree64 o.op ((List.range 64).map fun l => if bit mask l then x.lane a l else o.idle))
  | .tmax d a t =>
    put d fun l => (List.range 64).foldl (fun m j => fmaxBits Fmt.f32 m ((x.acc t).el l j)) (x.lane a l)
  | .texp a t => s.modCore c k (Core.setAcc t (tileOf fun i j => texpElem ((x.acc t).el i j) (x.lane a i)))
  | .tsum d t => put d fun l => tree64 (fadd Fmt.f32) ((List.range 64).map ((x.acc t).el l))
  | .tget d t a => put d fun l => (x.acc t).el l (x.sreg a)
  | .tput v t a =>
    let col := x.sreg a
    s.modCore c k (Core.setAcc t (tileOf fun i j => if j = col && bit mask i then x.lane v i else (x.acc t).el i j))
  | .ld pool d a imm =>
    let o := vaddr x a imm 64
    let bs := coreBytes s0 c k pool o 256
    coreLoaded c k pool o 256 (put d fun l => leAt bs (4 * l) 4)
  | .ldbc pool d a imm =>
    let o := vaddr x a imm 4
    let v := leVal (coreBytes s0 c k pool o 4)
    coreLoaded c k pool o 4 (put d fun _ => v)
  | .st pool v a imm => storeVector c k pool (vaddr x a imm 64) mask (x.lane v) s
  | .mov d a => put d fun _ => x.s32 a
  | .ext d v l => s.modCore c k (Core.setS d (x.lane v l))

end Sys2Proof.Machine
end

