-- ==== Sys2Proof/Machine/CoreMatrix.lean ====
section
/-! DEFINITION. What the M-slot operations compute, and how a matrix operation finishes (05, R153 to R163, R168; 06, R195 to
R197). Operands are read at issue, and results are written at completion. -/
namespace Sys2Proof.Machine

/-! ### Operand formats (R155) -/

/-- Bits of an element of each operand. -/
def MmaFmt.bits : MmaFmt → Nat
  | .e4m3 | .e5m2 | .e4m3e5m2 | .i8 | .mxfp8e4m3 | .mxfp8e5m2 => 8
  | .mxfp6e2m3 | .mxfp6e3m2 => 6
  | .e2m1 | .mxfp4 => 4
  | .bf16 | .f16 => 16

/-- Does the format carry MX scales? -/
def MmaFmt.scaled : MmaFmt → Bool
  | .mxfp8e4m3 | .mxfp8e5m2 | .mxfp6e2m3 | .mxfp6e3m2 | .mxfp4 => true
  | .e4m3 | .e5m2 | .e4m3e5m2 | .i8 | .e2m1 | .bf16 | .f16 => false

/-- The element format of the A operand, and of the B operand; none for INT8. -/
def MmaFmt.elem (b : Bool) : MmaFmt → Option Fmt
  | .e4m3 | .mxfp8e4m3 => some .e4m3
  | .e5m2 | .mxfp8e5m2 => some .e5m2
  | .e4m3e5m2 => some (if b then .e5m2 else .e4m3)
  | .i8 => none
  | .mxfp6e2m3 => some .e2m3
  | .mxfp6e3m2 => some .e3m2
  | .e2m1 | .mxfp4 => some .e2m1
  | .bf16 => some .bf16
  | .f16 => some .f16

/-- Bytes of one operand: its element data, and its scales. -/
def MmaFmt.bytes (f : MmaFmt) : Nat := 512 * f.bits + if f.scaled then 128 else 0

/-- The values of row `i` of an operand, before its scales. -/
def rowValues (f : MmaFmt) (b : Bool) (bs : List Byte) (i : Nat) : List FV :=
  let row := leAt bs (8 * f.bits * i) (8 * f.bits)
  (List.range 64).map fun j =>
    let e := row / 2 ^ (f.bits * j) % 2 ^ f.bits
    match f.elem b with
    | some g => g.decode e
    | none => FV.ofInt (toSigned 8 e)

/-- A power of two as a value. -/
def pow2 (e : Int) : FV := .fin false 1 e

/-- The scale of element `j` of row `i`; none where it is 0xFF (R154, R155). -/
def scaleOf (f : MmaFmt) (bs : List Byte) (i j : Nat) : Option Int :=
  if !f.scaled then some 0
  else
    let v := leAt bs (512 * f.bits + 2 * i + j / 32) 1
    if v = 255 then none else some ((v : Int) - 127)

/-- One operand row: each element's unscaled value and its scale. -/
def operandRow (f : MmaFmt) (b : Bool) (bs : List Byte) (i : Nat) : List (FV × Option Int) :=
  (List.range 64).zipWith (fun j v => (v, scaleOf f bs i j)) (rowValues f b bs i)

/-- An operand's 64 rows. -/
def operand (f : MmaFmt) (b : Bool) (bs : List Byte) : List (List (FV × Option Int)) :=
  (List.range 64).map (operandRow f b bs)

/-- The scaled value of an element. -/
def scaled (e : FV × Option Int) : FV :=
  match e.2 with
  | none => .nan
  | some x => FV.mul e.1 (pow2 x)

/-! ### mma (R156, R157, R159, R160) -/

/-- The product of two elements; `int` says that they are INT8. -/
def product (int : Bool) (x y : FV × Option Int) : FV :=
  let v := FV.mul (scaled x) (scaled y)
  if int then v.asInteger else v

/-- One element in the default mode: the exact sum of 65 terms, rounded once. -/
def dotDefault (int : Bool) (acc : Nat) (a b : List (FV × Option Int)) : Nat :=
  Fmt.f32.round (FV.sum (Fmt.f32.decode acc :: List.zipWith (product int) a b))

/-- One exact term: P as an integer of 2^−64, and its sticky bits. -/
def exactTerm (x y : FV × Option Int) : Int × Sticky :=
  match x, y with
  | (.fin p m e, some sx), (.fin q n g, some sy) =>
    let neg := p != q
    let mant := m * n
    let ex := e + g + sx + sy + 64
    let v := FV.nearest neg mant ex
    let changed := ex < 0 && mant % 2 ^ (-ex).toNat != 0
    let top : Int := 2 ^ 112
    if top ≤ v.natAbs then
      ((if v < 0 then 1 - top else top - 1), { range := true, sat := true, nan := false })
    else (v, { range := changed, sat := false, nan := false })
  | _, _ => (0, { range := true, sat := false, nan := false })

/-- One element in exact mode, modulo 2^128. -/
def dotExact (acc : Nat) (a b : List (FV × Option Int)) : Nat × Sticky :=
  let ts := List.zipWith exactTerm a b
  (ofInt 128 ((acc : Int) + (ts.map (·.1)).foldl (· + ·) 0), (ts.map (·.2)).foldl Sticky.or Sticky.none)

/-- The new accumulator tile; rows from `m` up keep theirs. -/
def mmaDefault (int z : Bool) (m : Nat) (old : Tile) (a b : List (List (FV × Option Int))) : Tile :=
  tileOf fun i j =>
    if i < m then dotDefault int (if z then 0 else old.el i j) (a.getD i []) (b.getD j []) else old.el i j

/-- The new wide tile and the sticky bits. -/
def mmaExact (z : Bool) (m : Nat) (old : Tile) (a b : List (List (FV × Option Int))) : Tile × Sticky :=
  let term := fun i j => dotExact (if z then 0 else old.el i j) (a.getD i []) (b.getD j [])
  (tileOf fun i j => if i < m then (term i j).1 else old.el i j,
   ((List.range m).map fun i => ((List.range 64).map fun j => (term i j).2).foldl Sticky.or Sticky.none).foldl Sticky.or
     Sticky.none)

/-- The row count of an mma: 64, or the value of a register (R196). -/
def mmaRows (x : Core) (m : Nat) : Nat := if m = 0 then 64 else x.sreg m

/-! ### mst (R153, R154, R158, R197) -/

/-- What a stored format holds. -/
inductive StoreFmt where
  | float (f : Fmt) | int8 | mx (f : Fmt)
  deriving DecidableEq, Repr

def storeFmts : List StoreFmt :=
  [.float .f32, .float .bf16, .float .f16, .float .e4m3, .float .e5m2, .float .e2m3, .float .e3m2, .float .e2m1, .int8,
   .mx .e4m3, .mx .e5m2, .mx .e2m3, .mx .e3m2, .mx .e2m1]

def storeFmt (fmt : Nat) : StoreFmt := storeFmts.getD fmt .int8

def StoreFmt.width : StoreFmt → Nat
  | .float f => f.width
  | .int8 => 8
  | .mx f => f.width

/-- Bytes mst writes. -/
def StoreFmt.bytes (f : StoreFmt) : Nat :=
  512 * f.width + match f with
    | .float _ => 0
    | .int8 => 0
    | .mx _ => 128

/-- emax: the exponent of the largest finite value (R154). -/
def Fmt.emax (f : Fmt) : Int :=
  let top := f.top - 1
  (top / 2 ^ f.mb : Nat) - f.bias

/-- ⌊log2⌋ of a non-zero finite magnitude. -/
def floorLog (v : FV) : Int :=
  match v with
  | .fin _ m e => e + (Nat.log2 m : Int)
  | .nan => 0
  | .inf _ => 0

def fvZero : FV → Bool
  | .fin _ m _ => m == 0
  | .nan => false
  | .inf _ => false

/-- The scale byte of a block of 32 values, and the exponent it stands for; none where some value is NaN or infinite. -/
def blockScale (f : Fmt) (vs : List FV) : Option Int :=
  if vs.any fun v => v.isNan || v.isInf true || v.isInf false then none
  else if vs.all fvZero then some (-127)
  else
    let amax := ((vs.filter fun v => !fvZero v).map floorLog).foldl max (-200)
    some (max (-127) (min 127 (amax - Fmt.emax f)))

/-- One MX block: its scale byte and its elements (R154). -/
def mxBlock (f : Fmt) (vs : List FV) : Nat × List Narrowed :=
  match blockScale f vs with
  | none => (255, vs.map fun _ => { bits := 0, sat := false, nan := false })
  | some e => ((e + 127).toNat, vs.map fun v => f.narrow false (FV.mul v (pow2 (-e))))

/-- One row of a stored tile: its elements, and its two scales. -/
def storeRow (f : StoreFmt) (sat : Bool) (t : Tile) (i : Nat) : List Narrowed × List Nat :=
  let vs := (List.range 64).map fun j => Fmt.f32.decode (t.el i j)
  match f with
  | .float g =>
    if g = .f32 then ((List.range 64).map fun j => { bits := t.el i j, sat := false, nan := false }, [])
    else (vs.map (g.narrow sat), [])
  | .int8 => (vs.map (FV.toIntSat 8), [])
  | .mx g =>
    let lo := mxBlock g (vs.take 32)
    let hi := mxBlock g (vs.drop 32)
    (lo.2 ++ hi.2, [lo.1, hi.1])

/-- Elements packed from bit 0 upwards (R155). -/
def packRow (w : Nat) (es : List Narrowed) : List Byte :=
  leBytes (8 * w) (((List.range 64).zipWith (fun j (e : Narrowed) => e.bits * 2 ^ (w * j)) es).foldl (· + ·) 0)

/-- The bytes of a stored tile and the sticky bits of its conversions. -/
def storeTile (f : StoreFmt) (sat : Bool) (t : Tile) : List Byte × Sticky :=
  let rows := (List.range 64).map (storeRow f sat t)
  ((rows.flatMap fun r => packRow f.width r.1) ++ (rows.flatMap fun r => r.2.map fun v => BitVec.ofNat 8 v),
   (rows.map fun r => (r.1.map Narrowed.sticky).foldl Sticky.or Sticky.none).foldl Sticky.or Sticky.none)

/-! ### wst, wld and wcvt (R161, R162) -/

def wideBytes : Nat := 65536

def wideStore (t : Tile) : List Byte := (List.range 4096).flatMap fun n => leBytes 16 (t.el (n / 64) (n % 64))

def wideLoad (bs : List Byte) : Tile := tileOf fun i j => leAt bs (16 * (64 * i + j)) 16

/-- One wide element as FP32, and whether bits [127:126] differ. -/
def wideConvert (v : Nat) : Nat :=
  Fmt.f32.round (FV.ofDyadic { n := toSigned 128 v, e := -64 } false)
def wideWarn (v : Nat) : Bool := bit v 127 != bit v 126

/-! ### Issue and completion (R145, R168) -/

/-- A matrix operation that writes nothing. -/
def MxOp.empty : MxOp where
  acc := none
  wide := none
  spm := none
  token := none
  range := false
  sat := false
  nan := false
  counts := []

def MxOp.stickies (m : MxOp) (f : Sticky) : MxOp := { m with range := f.range, sat := f.sat, nan := f.nan }

/-- Counters of a completed mma (R468). -/
def mmaCounts (f : MmaFmt) (m : Nat) (ex : Bool) : List (Nat × Nat) :=
  [(20, 1), (22, m)] ++ (if ex then [(23, 1)] else []) ++
  [((if f.bits = 16 then 26 else if f.bits = 4 then 25 else 24), 1)]

/-- What an M-slot operation will write, its operands read in the state at issue. -/
def matrixOp (c k : Nat) (s0 : State) (op : MOp) : MxOp :=
  let x := s0.core c k
  let none := MxOp.empty
  match op with
  | .mma f t a b m z ex =>
    let rows := mmaRows x m
    let ra := operand f false (coreBytes s0 c k false (x.sreg a) f.bytes)
    let rb := operand f true (coreBytes s0 c k false (x.sreg b) f.bytes)
    if ex then
      let r := mmaExact z rows (x.wide t) ra rb
      { MxOp.stickies none r.2 with wide := some (t, r.1), counts := mmaCounts f rows ex }
    else { none with acc := some (t, mmaDefault (f == .i8) z rows (x.acc t) ra rb), counts := mmaCounts f rows ex }
  | .mscale t v =>
    { none with acc := some (t, tileOf fun i j => fmul Fmt.f32 ((x.acc t).el i j) (x.lane v i)) }
  | .mst t a fmt sat tok =>
    let r := storeTile (storeFmt fmt) sat (x.acc t)
    { MxOp.stickies none r.2 with spm := some (x.sreg a, r.1), token := tok, counts := [(27, 1)] }
  | .wst t a tok => { none with spm := some (x.sreg a, wideStore (x.wide t)), token := tok, counts := [(28, 1)] }
  | .wld t a =>
    { none with wide := some (t, wideLoad (coreBytes s0 c k false (x.sreg a) wideBytes)), counts := [(28, 1)] }
  | .wcvt t w tok =>
    let old := x.wide w
    let warn := old.any fun e => wideWarn e.2
    { none with acc := some (t, tileOf fun i j => wideConvert (old.el i j)), token := tok, range := warn,
                counts := [(28, 1)] }

/-- SPM bytes the matrix unit reads for an operation: offsets and lengths. -/
def matrixReads (x : Core) (op : MOp) : List (Nat × Nat) :=
  match op with
  | .mma f _ a b _ _ _ => [(x.sreg a, f.bytes), (x.sreg b, f.bytes)]
  | .wld _ a => [(x.sreg a, wideBytes)]
  | .mscale _ _ => []
  | .mst _ _ _ _ _ => []
  | .wst _ _ _ => []
  | .wcvt _ _ _ => []

/-- SPM bytes an operation will write. -/
def matrixWrites (x : Core) (op : MOp) : List (Nat × Nat) :=
  match op with
  | .mst _ a fmt _ _ => [(x.sreg a, (storeFmt fmt).bytes)]
  | .wst _ a _ => [(x.sreg a, wideBytes)]
  | .mma _ _ _ _ _ _ _ => []
  | .wld _ _ => []
  | .mscale _ _ => []
  | .wcvt _ _ _ => []

/-- The matrix unit takes an operation: its reads are counted, and it joins the operations in progress and waiting. -/
def mEffect (c k : Nat) (s0 : State) (op : MOp) (s : State) : State :=
  let n := ((matrixReads (s0.core c k) op).map fun r => cdiv r.2 64).foldl (· + ·) 0
  (countCore c k 31 n s).modCore c k fun x => { x with matrix := x.matrix ++ [matrixOp c k s0 op] }

/-- The writes of a finished operation. -/
def MxOp.finish (m : MxOp) (x : Core) : Core :=
  let x := match m.acc with
    | some (t, v) => x.setAcc t v
    | none => x
  let x := match m.wide with
    | some (t, v) => x.setWide t v
    | none => x
  let x := match m.spm with
    | some (a, bs) => x.spmPut a bs
    | none => x
  match m.token with
    | some t => { x with tokens := SMap.upd 0 x.tokens t (· + 1) }
    | none => x

/-- One matrix operation fewer stands between a core's scratchpad stores and the commands it issued after them (R112). -/
def storesLanded (c k : Nat) (s : State) : State :=
  let step := fun (q : TeCmd) => match q.origin with
    | .core cc kk _ _ _ _ => if cc == c && kk == k then { q with mx := q.mx - 1 } else q
    | .ring _ _ _ _ => q
    | .sill _ => q
  let te := fun (te : Te) => { te with queue := te.queue.map step }
  { s with clusters := mapAll Cluster.reset (fun cl => { cl with tes := mapAll Te.reset te cl.tes }) s.clusters }

/-- The oldest matrix operation finishes: its result or its last SPM byte is written, and its token counts (R168). A core
that stops or waits goes on once none is left (R171, R186). -/
def matrixDone (c k : Nat) (s : State) : State :=
  match (s.core c k).matrix with
  | [] => s
  | m :: rest =>
    let s := storesLanded c k (s.modCore c k fun x => m.finish { x with matrix := rest })
    let s := stick c k { range := m.range, sat := m.sat, nan := m.nan } s
    let s := forEach m.counts (fun q => countCore c k q.1 q.2) s
    let s := match m.spm with
      | some (_, bs) => countCore c k 32 (cdiv bs.length 64) s
      | none => s
    let s := if m.token.isSome then countCore c k 38 1 s else s
    match (s.core c k).run with
    | .stopping v way => if rest.isEmpty then haltCore c k v way s else s
    | .waiting _ => settleWait c k s
    | .halted => s
    | .running => s
    | .held => s
    | .waking => s

end Sys2Proof.Machine
end

