-- ==== Sys2Proof/Machine/LensDesc.lean ====
section
/-! DEFINITION. The 256-bit form of a Lens window descriptor, its rules, and what changing one does (02, R58 to R60,
R66). -/
namespace Sys2Proof.Machine

/-- The fields of a 256-bit descriptor (R58). -/
def descOf (v : Nat) : LensDesc where
  valid := bit v 0
  paged := bit v 1
  pool := bit v 2
  size := bits v 8 3
  rd := bit v 9
  wr := bit v 10
  at_ := bit v 11
  re := bit v 12
  ownOnly := bit v 13
  owner := bits v 27 16
  part := bits v 33 28
  wgen := bits v 47 40
  base := bits v 106 64

/-- A descriptor as its register reads (R58). -/
def descVal (d : LensDesc) : Nat :=
  b2n d.valid + fld 1 (b2n d.paged) + fld 2 (b2n d.pool) + fld 3 d.size + fld 9 (b2n d.rd) + fld 10 (b2n d.wr)
  + fld 11 (b2n d.at_) + fld 12 (b2n d.re) + fld 13 (b2n d.ownOnly) + fld 16 d.owner + fld 28 d.part + fld 40 d.wgen
  + fld 64 d.base

/-- Reserved bits of a 256-bit descriptor are zero; WGEN is ignored (R58, R370). -/
def descReservedOk (v : Nat) : Bool :=
  bits v 15 14 == 0 && bits v 39 34 == 0 && bits v 63 48 == 0 && bits v 255 107 == 0

/-- The descriptor rules of R60, for a descriptor with VALID set. -/
def descOk (s : State) (v : Nat) : Bool :=
  let d := descOf v
  let span := 2 ^ d.size
  let form :=
    if d.paged then
      !d.pool && 21 ≤ d.size && d.size ≤ 40 && d.base % 4096 == 0 && inTier0 d.base (8 * 2 ^ (d.size - 21))
    else if d.pool then 21 ≤ d.size && d.size ≤ 24 && d.base % 2 ^ 21 == 0 && d.base + span ≤ poolBytes
    else 21 ≤ d.size && d.size ≤ 40 && d.base % 2 ^ 21 == 0 && rangeBacked s d.base span
  form && (!d.ownOnly || d.owner / 16 ≤ 143) && descReservedOk v

end Sys2Proof.Machine
end

