-- ==== Sys2Proof/Machine/CtlOps.lean ====
section
/-! DEFINITION. Control commands: their checks, their start in ring order, and what each does (02, R49, R60 to R70; 04,
R126; 13, R359 to R372). -/
namespace Sys2Proof.Machine

/-- Command codes of a control ring (R370). -/
def ocWindow : Nat := 0x41
def ocLensInv : Nat := 0x42
def ocDvaInv : Nat := 0x43
def ocStreamReset : Nat := 0x44
def ocLoadProg : Nat := 0x45
def ocStart : Nat := 0x46
def ocStop : Nat := 0x47
def ocResume : Nat := 0x48
def ocAttach : Nat := 0x50
def ocDetach : Nat := 0x51
def ocPin : Nat := 0x52
def ocUnpin : Nat := 0x53
def ocMove : Nat := 0x54
def ocRebuild : Nat := 0x55

/-! ### Checks 1 to 3 (R363 to R366, R370) -/

/-- Bytes 8 to 63 have no bit set outside these (low bit, width) fields, numbered from byte 8. -/
def onlyFields (e : List Byte) (fs : List (Nat × Nat)) : Bool :=
  let v := leVal (e.drop 8)
  (fs.map fun f => v / 2 ^ f.1 % 2 ^ f.2 * 2 ^ f.1).foldl (· + ·) 0 == v

/-- Fields in bytes 8 to 63 of each control command (R370). -/
def ctlFields (o : Nat) : List (Nat × Nat) :=
  if o == ocWindow then [(0, 4), (16, 12), (192, 256)]
  else if o == ocLensInv then [(0, 4), (16, 12), (64, 32), (96, 32)]
  else if o == ocDvaInv then [(0, 4), (64, 64), (128, 64)]
  else if o == ocStreamReset then [(0, 4), (8, 1), (32, 12), (48, 6)]
  else if o == ocLoadProg then [(0, 4), (8, 8), (64, 64), (128, 3), (160, 32), (192, 16)]
  else if o == ocStart then [(0, 4), (8, 8), (64, 14)]
  else if o == ocStop then [(0, 4), (8, 8)]
  else if o == ocResume then [(0, 4), (8, 3)]
  else if o == ocAttach then [(0, 22), (32, 4), (40, 6), (48, 1), (64, 64), (128, 64), (192, 20), (216, 4)]
  else if o == ocMove then [(0, 22), (32, 32), (64, 2)]
  else if o == ocRebuild then [(0, 22)]
  else if o == ocDetach || o == ocPin || o == ocUnpin then [(0, 22), (32, 32)]
  else []

/-- ENDPOINT, CLUSTER or DAS in byte 8, and WINDOW in bytes 10 and 11 (R370). -/
def ctlUnit (e : List Byte) : Nat := leAt e 8 1 % 16
def ctlWindow (e : List Byte) : Nat := leAt e 10 2 % 4096

/-- A DPA of a leaf that a CPT entry can hold (R261). -/
def leafField (v : Nat) : Bool := v % 8 == 0 && v < 2 ^ 43

/-- Fields lie within the limits of their command, and those its other fields leave unused are zero (R370). A reserved bit
of a descriptor with VALID set is for R60 to refuse (BOUNDS); with VALID clear it is R12's (MALFORMED). -/
def ctlLimits (e : List Byte) : Bool :=
  let o := entOpcode e
  if o == ocWindow then bit (leAt e 32 1) 0 || descReservedOk (leVal (e.drop 32))
  else if o == ocLensInv then leAt e 20 4 != 0 || leAt e 16 4 == 0
  else if o == ocDvaInv then (leAt e 24 8 != 0 || leAt e 16 8 == 0) && leAt e 16 8 < 2 ^ 48
  else if o == ocStreamReset then !bit (leAt e 9 1) 0 || (leAt e 12 2 == 0 && leAt e 14 1 == 0)
  else if o == ocLoadProg then
    let n := leAt e 28 4
    leAt e 9 1 != 0 && (leAt e 24 1 == 2 || leAt e 24 1 == 3) && 16 ≤ n && n ≤ 262144 && n % 16 == 0
  else if o == ocStart || o == ocStop then leAt e 9 1 != 0
  else if o == ocAttach then
    let g := bits (leAt e 32 4) 19 0
    let slot := bits (leAt e 32 4) 27 24
    leafField (leAt e 16 8) && (if bit (leAt e 14 1) 0 then leafField (leAt e 24 8) else leAt e 24 8 == 0)
    && slot ≤ 14 && (g != noGroup || slot == 0)
  else if o == ocDetach || o == ocPin || o == ocUnpin then 1 ≤ leAt e 12 4 && leAt e 12 4 ≤ 65536
  else if o == ocMove then 1 ≤ leAt e 12 4 && leAt e 12 4 ≤ 65536 && leAt e 16 1 % 4 ≤ 2
  else true

/-- Is the opcode one of a control ring's? -/
def ctlOpcode (o : Nat) : Bool := o == 0 || (0x41 ≤ o && o ≤ 0x48) || (0x50 ≤ o && o ≤ 0x55)

/-- Package states in which a control command is legal (R365). -/
def ctlStates (o : Nat) : List PkgState :=
  if o == 0 then [.unconfigured, .configured, .assigned, .running, .draining, .fenced, .clearing]
  else if o == ocWindow || o == ocLensInv || o == ocDvaInv then
    [.unconfigured, .configured, .assigned, .running, .draining, .fenced]
  else if o == ocLoadProg || o == ocAttach || o == ocRebuild then [.assigned, .running]
  else if o == ocStart then [.running]
  else [.assigned, .running, .draining]

/-- A control command of this code in progress that names the core and was taken at a time, on another ring. -/
def takenBeside (s : State) (o x r t c k : Nat) (p : CtlCmd → Bool) : Bool :=
  [0, 1].any fun y => (s.host y).ctl.any fun j =>
    entOpcode j.entry == o && j.taken == t && !(y == x && j.ring == r) && namesCore j.entry c k && p j

/-- Conditions of the units a command acts on (R366). A core that a CORE_STOP taken in the same cycle on another ring is to
halt counts as halted: each is judged in the state the other leaves (R382). -/
def ctlUnitsOk (s : State) (x r : Nat) (e : List Byte) : Bool :=
  let o := entOpcode e
  (!(o == ocLoadProg || o == ocStart) ||
    (namedCores e).all fun k => (s.core (ctlUnit e) k).run == .halted ||
      (o == ocStart && takenBeside s ocStop x r s.now (ctlUnit e) k fun _ => true)) &&
  (o != ocResume || (s.te (ctlUnit e) (leAt e 9 1 % 8)).stalled) && (!isSillCtl e || s.sill.en) &&
  (!entMeasure e || logUsed s < 512)

/-- Checks 1 to 3 of a control command at its taking (R363). -/
def ctlVerdict (s : State) (x r : Nat) (e : List Byte) : Option Nat :=
  let o := entOpcode e
  if !ctlOpcode o then some stUnsupported
  else if (o == ocLoadProg || o == ocStart || o == ocStop) && leAt e 9 1 != 0 && !coresEnabled s (ctlUnit e) then
    some stUnsupported
  else if !(commonOk e false false false (o == ocLoadProg) (o == ocResume || o == ocAttach) false false
      && onlyFields e (ctlFields o) && ctlLimits e) then some stMalformed
  else if !inStates s (ctlStates o) || (s.glob.clearWait && !(ctlStates o).contains .clearing) || !ctlUnitsOk s x r e then
    some stStateReject
  else none

/-! ### Starting a control command (R360) -/

/-- The next command of a ring that has not started. -/
def nextCtl (s : State) (x r : Nat) : Option CtlCmd := (s.host x).ctl.find? fun k => k.ring == r && k.phase == .queued

/-- Of a CORE_START and a CORE_STOP of one core taken in the same cycle, the one of HP0, and then of the lower ring, goes
first (R382): a start waits until the stop has halted the core, a stop until the start has begun. -/
def yields (s : State) (x : Nat) (k : CtlCmd) : Bool :=
  let o := entOpcode k.entry
  let other := if o == ocStart then ocStop else ocStart
  (o == ocStart || o == ocStop) && (namedCores k.entry).any fun i =>
    [0, 1].any fun y => (s.host y).ctl.any fun j =>
      entOpcode j.entry == other && j.taken == k.taken && 256 * y + j.ring < 256 * x + k.ring
      && namesCore j.entry (ctlUnit k.entry) i && (other == ocStop || j.phase == .queued)

/-- May it start? ORDER waits for every earlier command of the ring (R360). -/
def ctlMayStart (s : State) (x : Nat) (k : CtlCmd) : Bool :=
  (!entOrder k.entry || !((s.host x).ctl.takeWhile (· != k)).any fun j => j.ring == k.ring) && !yields s x k

/-- Is the command's unit condition gone since it was taken: a core no longer halted, or the measurement log full (R366,
R378, R382, assumption 75)? -/
def lapsed (s : State) (k : CtlCmd) : Bool :=
  let e := k.entry
  let o := entOpcode e
  ((o == ocLoadProg || o == ocStart) && !(namedCores e).all fun i => (s.core (ctlUnit e) i).run == .halted) ||
  (entMeasure e && 512 ≤ logUsed s)

/-- Start the ring's next command, if it is of this code, and go on with it. -/
def startCtl (x r op : Nat) (f : CtlCmd → State → State) (s : State) : State :=
  match nextCtl s x r with
  | none => s
  | some k =>
    if entOpcode k.entry != op || !ctlMayStart s x k then s
    else if lapsed s k then finishCtl x r k.index stStateReject 0 s
    else f k (s.modCtl x r k.index fun k => { k with phase := .running 0 0 })

/-! ### Windows (R60, R66 to R70) -/

/-- WINDOW_UPDATEs of a window that have started and have not reached their switch point, oldest first; those of HP0 come
first (R70, assumption 37). -/
def waitingUpdates (s : State) (e w : Nat) : List (Nat × CtlCmd) :=
  [0, 1].flatMap fun x => ((s.host x).ctl.filter fun k =>
    entOpcode k.entry == ocWindow && k.phase == .running 0 0 && ctlUnit k.entry == e && ctlWindow k.entry == w).map
      fun k => (x, k)

/-- The new descriptor of a WINDOW_UPDATE. -/
def newDesc (k : CtlCmd) : Nat := leVal ((k.entry.drop 32).take 32)

/-- A VALID descriptor that breaks a rule is refused; so is a reserved bit (R60). -/
def updateBad (s : State) (k : CtlCmd) : Bool := bit (newDesc k) 0 && !descOk s (newDesc k)

/-- Refuse the updates whose turn has come and that break a rule (R60, R70). -/
def judgeUpdates (e w : Nat) : Nat → State → State
  | 0, s => s
  | n + 1, s =>
    match waitingUpdates s e w with
    | [] => s
    | (x, k) :: _ =>
      if updateBad s k then judgeUpdates e w n (finishCtl x k.ring k.index stBounds (LensDesc.at_w s e w).wgen s)
      else s

/-- Packets of a window accepted and not finished: queued, waiting for a page, or held (R68). -/
def acceptedPkts (s : State) (e w : Nat) : List Packet :=
  let b := s.epb e
  (b.collide.map (·.pkt) ++ b.pageWait.map (·.pkt) ++ heldPkts b).filter fun p => p.hdr.window == w

/-- Open Accord sessions of a window are abandoned (R100). -/
def abandonWindow (e w : Nat) (s : State) : State :=
  forEach ((openSessions (s.epb e)).filter fun x => x.window == w) (fun x => abandon e x 0) s

/-- The switch point of an update: the new fields and the next generation (R66). -/
def switchPoint (x e w : Nat) (k : CtlCmd) (s : State) : State :=
  let g := ((LensDesc.at_w s e w).wgen + 1) % 256
  let old := acceptedPkts s e w
  let s := abandonWindow e w s
  let d := { descOf (newDesc k) with wgen := g }
  let s := s.modEpb e fun b =>
    { b with lens := SMap.set LensDesc.reset b.lens w d, switched := SMap.set 0 b.switched w (1 + s.now),
             cache := b.cache.filter fun c => c.window != w }
  s.modCtl x k.ring k.index fun k => { k with phase := .running 1 g, waits := old }

/-- Has the window rested 8 µs since its last switch point (R69)? -/
def spaced (s : State) (e w : Nat) : Bool :=
  let t := SMap.get 0 (s.epb e).switched w
  t == 0 || t + 8000 ≤ s.now + 1

/-- A root of the window formed under an older generation than `g` and not yet written (R68, R100). -/
def oldRoot (s : State) (e w g : Nat) : Bool :=
  (s.epb e).sessions.any fun x => x.window == w && x.root.isSome && x.desc.wgen != g

/-- Do packets a drain waits for remain (R62, R68)? -/
def drainBusy (s : State) (e w : Nat) (waits : List Packet) : Bool := (acceptedPkts s e w).any waits.contains

/-! ### Translations (R49, R62) -/

/-- Does the translation lie in a virtual range of a DAS? LENGTH 0 is the whole DAS. -/
def Trans.inRange (das va len : Nat) (t : Trans) : Bool :=
  t.das == das && (len == 0 || !disjoint (t.page * pageBytes) (t.count * pageBytes) va len)

/-- TE commands that hold such a translation: those of a stalled TE are not waited for (R49, R51). -/
def transUsers (s : State) (p : Trans → Bool) : List (Nat × Nat × Nat) :=
  (List.range 16).flatMap fun c => (List.range 8).flatMap fun t =>
    if (s.te c t).stalled then [] else
    ((s.te c t).queue.filter fun q => (q.phase == .running || q.translating) && q.trans.any p).map fun q => (c, t, q.id)

def dvaRange (e : List Byte) : Trans → Bool := Trans.inRange (ctlUnit e) (leAt e 16 8) (leAt e 24 8)

/-- Translations no access uses are dropped: those of a stalled TE, and of a PROGRAM_LOAD, whose source is read only once
every page of it is translated (R49, R51, R72). -/
def dropIdle (p : Trans → Bool) (s : State) : State :=
  let s := forEach (List.range 16) (fun c s => forEach (List.range 8) (fun t s =>
    if (s.te c t).stalled then
      s.modTe c t fun te => { te with queue := te.queue.map fun q => { q with trans := q.trans.filter fun t => !p t } }
    else s) s) s
  forEach [0, 1] (fun x => State.modHost x fun h =>
    { h with ctl := h.ctl.map fun k => { k with trans := k.trans.filter fun t => !p t } }) s

/-- DVA_INVALIDATE leaves every translation cache, and notes the accesses it waits for (R49). -/
def dvaGo (x r : Nat) (k : CtlCmd) (s : State) : State :=
  let va := leAt k.entry 16 8
  let len := leAt k.entry 24 8
  if 2 ^ 48 < va + len then finishCtl x r k.index stBounds 0 s
  else
    let p := dvaRange k.entry
    let users := transUsers s p
    let s := forEach (List.range 16) (fun c => State.modCluster c fun cl => { cl with tlb := cl.tlb.filter fun t => !p t }) s
    (dropIdle p s).modCtl x r k.index fun k => { k with cmds := users }

/-- Is a TE command a drain waits for still in progress? -/
def cmdBusy (s : State) (w : Nat × Nat × Nat) : Bool :=
  let te := s.te w.1 w.2.1
  !te.stalled && te.queue.any fun q => q.id == w.2.2 && (q.phase == .running || q.translating)

/-- LENS_INVALIDATE empties the cache of its pages and notes the requests it waits for (R62). -/
def lensInvGo (x r : Nat) (k : CtlCmd) (s : State) : State :=
  let e := ctlUnit k.entry
  let w := ctlWindow k.entry
  let first := leAt k.entry 16 4
  let n := leAt k.entry 20 4
  let old := acceptedPkts s e w
  let s := s.modEpb e fun b =>
    { b with cache := b.cache.filter fun c => !(c.window == w && (n == 0 || (first ≤ c.page && c.page < first + n))) }
  s.modCtl x r k.index fun k => { k with waits := old }

/-! ### Streams (R126) -/

/-- STREAM_RESET clears the named records; held packets are answered STREAM_BROKEN (R126). -/
def streamResetGo (x r : Nat) (k : CtlCmd) (s : State) : State :=
  let e := ctlUnit k.entry
  let all := bit (leAt k.entry 9 1) 0
  let snode := leAt k.entry 12 2
  let stag := leAt k.entry 14 1
  let named := fun (q : StreamRec) => all || (q.snode == snode && q.stag == stag)
  let gone := (s.epb e).streams.filter named
  let s := s.modEpb e fun b => { b with streams := b.streams.filter fun q => !named q }
  let s := forEach gone (fun q s => match q.held with
    | some h => answer e h.pkt.hdr stStreamBroken s
    | none => s) s
  finishCtl x r k.index stOk 0 s

/-! ### PROGRAM_LOAD (R48, R142, R370, R378) -/

/-- A control command seen as a TE command, for the range checks they share. -/
def ctlAsCmd (x : Nat) (k : CtlCmd) (host : List Byte) : TeCmd where
  id := 0
  origin := .ring x k.ring k.index k.gen
  entry := k.entry
  das := k.das
  verdict := none
  started := true
  phase := .running
  trans := k.trans
  pkts := []
  result := 0
  detail := 0
  failAddr := 0
  failDpa := 0
  failOff := 0
  reserved := false
  hport := x
  hgen := k.gen
  pasid := k.pasid
  cq := k.cq
  mx := 0
  data := host
  cur := 0
  acc := 0

/-- Write bundles to an instruction memory. -/
def imemWrite (first : Nat) (bs : List Byte) (k : Core) : Core :=
  let n := bs.length / 16
  { k with imem := (List.range n).foldl (fun m i => SMap.set 0 m (first + i) (leAt bs (16 * i) 16)) k.imem,
           imemBad := k.imemBad.filter fun b => b < first || first + n ≤ b,
           imemCe := k.imemCe.filter fun b => b < first || first + n ≤ b }

/-- Write bundles to every core a load names. -/
def loadBundles (e bs : List Byte) (s : State) : State :=
  forEach (namedCores e) (fun k => State.modCore (ctlUnit e) k (imemWrite (leAt e 32 2) bs)) s

/-- The bundle range of a load is left undefined: free bytes (R367, R378, R406). -/
def spoilBundles (e : List Byte) (s : State) : State := loadBundles e (freeBytes s.draw (leAt e 28 4)) s.drawn

/-- Every bundle of the named cores' instruction memories is undefined: free bytes (R367). -/
def spoilMemory (e : List Byte) (s : State) : State :=
  forEach (namedCores e) (fun k => State.modCore (ctlUnit e) k (imemWrite 0 (freeBytes s.draw (16 * imemBundles)))) s.drawn

/-- A load whose checks have passed reads its source and writes its bundles. -/
def loadData (x : Nat) (k : CtlCmd) (q : TeCmd) (s : State) : State :=
  let e := k.entry
  let c := ctlUnit e
  let n := leAt e 28 4
  if imemBundles < leAt e 32 2 + n / 16 then finishCtl x k.ring k.index stBounds 0 s
  else
    let src := segsOf s c q (leAt e 24 1) (leAt e 16 8) n
    let s := noteReads c q src s
    match firstBad s c false 0 src with
    | some _ => finishCtl x k.ring k.index stUncorrected 0 (spoilBundles e (badNotes false src s))
    | none =>
      let bs := readSegs s c q.data src
      let s := loadBundles e bs s
      if entMeasure e then
        let r := appendMeasure (measureDesc ocLoadProg 0xFF (leAt e 9 1) n (16 * leAt e 32 2)) bs s
        finishCtl x k.ring k.index stOk r.1 r.2
      else finishCtl x k.ring k.index stOk 0 s

/-- What a load in progress waits for, as the stage of its phase: nothing, a context page, an ATS translation, or a Page
Request Group Response. -/
def loadReady : Nat := 0
def loadPage : Nat := 1
def loadAts : Nat := 2
def loadPri : Nat := 3

/-- Go on with a PROGRAM_LOAD: check its source, translating where that is needed, and then load (R44 to R48, R53). -/
def loadGo (x r i : Nat) (host : List Byte) : Nat → State → State
  | 0, s => s
  | n + 1, s =>
    match (s.host x).ctlAt r i with
    | none => s
    | some k =>
      let c := ctlUnit k.entry
      let q := ctlAsCmd x k host
      let stage := fun st a => s.modCtl x r i fun k => { k with phase := .running st a }
      let g : Rng := { space := leAt k.entry 24 1, addr := leAt k.entry 16 8, len := leAt k.entry 28 4, write := false }
      match chkRange s c q g with
      | .fail st _ _ _ => finishCtl x r i st 0 s
      | .ats page w _ _ => (stage loadAts page).emit (.atsRequest x k.pasid page w)
      | .ok => loadData x k q s
      | .walk das page _ _ =>
        let s := wakeWalk s das page
        match walkEnd s das page with
        | .leaf t =>
          loadGo x r i host n ((cacheTrans c t s).modCtl x r i fun k => { k with trans := t :: k.trans })
        | .bad st a => finishCtl x r i st 0 (if st = stUncorrected then ueNote a s else s)
        | .away cpn _ =>
          match pageVerdict s cpn with
          | some st => finishCtl x r i st 0 (noteLost cpn s)
          | none =>
            let s := demandPage cpn s
            if pageState s cpn = pgResident then loadGo x r i host n s
            else s.modCtl x r i fun k => { k with phase := .running loadPage cpn }

/-- Steps a load may take at once: a walk and a page for each page of its source. -/
def loadFuel : Nat := 8

/-- A load of the ring that has started and can go on. -/
def readyLoad (s : State) (x r : Nat) : Option CtlCmd :=
  (s.host x).ctl.find? fun k => k.ring == r && entOpcode k.entry == ocLoadProg && (match k.phase with
    | .queued => false
    | .running st _ => st == loadReady || st == loadPage)

/-! ### TE_RESUME (R372) -/

/-- With FLUSH, every command that has not started completes TORN_DOWN. -/
def flushTe (c t : Nat) (s : State) : State :=
  forEach (s.te c t).queue (fun q s => match q.phase with
    | .queued => endCmd c t q.id stTornDown s
    | .armed _ => endCmd c t q.id stTornDown s
    | .walking _ _ => s
    | .pageWait _ _ _ => s
    | .ats _ _ _ => s
    | .pri _ _ _ => s
    | .running => s
    | .done _ => s) s

/-- Has everything that was in progress, or was flushed, completed? -/
def teQuiet (te : Te) : Bool := te.queue.all fun q => match q.phase with
  | .queued => true
  | .armed _ => true
  | .walking _ _ => false
  | .pageWait _ _ _ => false
  | .ats _ _ _ => false
  | .pri _ _ _ => false
  | .running => false
  | .done _ => false

/-- A TE_RESUME in progress ends when its TE is quiet: the slot is cleared and the TE restarts. -/
def resumeOne (x : Nat) (k : CtlCmd) (s : State) : State :=
  let c := ctlUnit k.entry
  let t := leAt k.entry 9 1 % 8
  if entOpcode k.entry == ocResume && k.phase != .queued && teQuiet (s.te c t) then
    finishCtl x k.ring k.index stOk 0 (s.modTe c t fun te => { te with fault := [] })
  else s

def settleResume (s : State) : State := forEach [0, 1] (fun x s => forEach (s.host x).ctl (resumeOne x) s) s

end Sys2Proof.Machine
end

