-- ==== Sys2Proof/Machine/CoreSync.lean ====
section
/-! DEFINITION. What the X-slot operations do: TE commands, completion counters, release and acquire, barriers, flag waits,
wake and watch (04, R127 to R132; 06, R198 to R204). -/
namespace Sys2Proof.Machine

/-! ### TE commands (R198 to R200) -/

/-- Matrix operations of the core up to the last that writes its scratchpad: what an issued command must find landed
(R112). -/
def Core.storesAhead (x : Core) : Nat :=
  x.matrix.length - ((x.matrix.reverse.takeWhile fun m => m.spm.isNone).length)

/-- Bytes of a TE command. -/
def entryBytes : Nat := 64

/-- A core's command joins a TE queue; it uses the DAS of the core's cluster, and host memory through the main port
(R198, R368). -/
def placeCmd (c k : Nat) (s0 : State) (clu q a : Nat) (x wake : Bool) (token : Option Nat) (s : State) : State :=
  let e := coreBytes s0 c k false a entryBytes
  let core := s0.core c k
  let port := s0.mainPort
  let phase := match token with
    | some t => CmdPhase.armed t
    | none => .queued
  let cmd := fun id =>
    { freshCmd id (.core c k q x wake core.gen) e (s0.cluster c).dasSelect phase [] with
      hport := port, hgen := (s0.host port).gen, mx := core.storesAhead }
  (wakeDomain (endpointDom clu) s).modTe clu q fun te =>
    { te with nextId := te.nextId + 1, turn := if x then 2 else 1,
              queue := te.queue ++ [judged s0 clu q (cmd te.nextId)] }

/-- Is a queue full (R145)? -/
def queueFull (s : State) (clu q : Nat) : Bool := 256 ≤ (s.te clu q).queue.length

/-- Is a command bound to this token of this core in a queue of the cluster other than `q` (R200)? -/
def armedElsewhere (s : State) (c k q token : Nat) : Bool :=
  anyBelow 8 fun t => t != q && (s.te c t).queue.any fun cmd =>
    match cmd.phase, cmd.origin with
    | .armed n, .core cc kk _ _ _ _ => n == token && cc == c && kk == k
    | _, _ => false

/-- Has the counter reached the value, as a signed difference of 32 bits? -/
def countReached (x : Core) (i v : Nat) : Bool := 0 ≤ toSigned 32 (SMap.get 0 x.cc i + 2 ^ 32 - v % 2 ^ 32)

/-! ### Whose turn it is at a TE (R359) -/

/-- Can the device take the ring's next entry, but for the turn of its TE (R355, R359, R360, R380, R382)? -/
def ringCould (s : State) (x r : Nat) : Bool :=
  let h := s.host x
  let q := h.sqAt r
  q.en && !q.stopped && h.linkUp && !h.d3hot && q.head != q.tail && (h.cqAt q.cq).roomLeft &&
  (if q.control then h.ctl.length < 64
   else (s.te q.cluster q.te).queue.length < 256 && !(s.te q.cluster q.te).stalled)

/-- Data rings bound to a TE whose next entry could be taken, as 256 port + ring. -/
def ringsWaiting (s : State) (c t : Nat) : List Nat :=
  [0, 1].flatMap fun x => ((s.host x).sq.filter fun q =>
    !q.2.control && q.2.cluster == c && q.2.te == t && ringCould s x q.1).map fun q => 256 * x + q.1

/-- The TE queue, and whether by te.xissue, that the bundle at a core's PC issues to. -/
def issueTo (s : State) (c k : Nat) : Option (Nat × Nat × Bool) :=
  match decodeBundle (SMap.get 0 (s.core c k).imem (s.core c k).pc) with
  | .error _ => none
  | .ok b => match b.x with
    | some (.issue q _ _) => some (c, q, false)
    | some (.arm q _ _ _) => some (c, q, false)
    | some (.xissue q _ clu _) => some (clu, q, true)
    | _ => none

/-- Does a core hold back a bundle that issues to the TE: from its own cluster, or by te.xissue? -/
def coresWaiting (s : State) (c t : Nat) (x : Bool) : Bool :=
  (List.range 16).any fun cc => (List.range 8).any fun k =>
    (s.core cc k).run == .held && issueTo s cc k == some (c, t, x)

/-- Does source `i` of a TE have a command for it: 0 its rings, 1 te.issue and te.arm, 2 te.xissue? -/
def sourceWaits (s : State) (c t i : Nat) : Bool :=
  if i = 0 then !(ringsWaiting s c t).isEmpty else coresWaiting s c t (i == 2)

/-- Is it source `i`'s turn: does no other source that waits come before it, counting round from the one last served? -/
def sourceTurn (s : State) (c t i : Nat) : Bool :=
  let dist := fun j => (j + 2 - (s.te c t).turn) % 3
  [0, 1, 2].all fun j => j == i || !sourceWaits s c t j || dist i < dist j

/-- Is it the ring's turn among the rings bound to the TE? -/
def ringTurn (s : State) (c t key : Nat) : Bool :=
  let dist := fun j => (j + 511 - (s.te c t).lastRing) % 512
  (ringsWaiting s c t).all fun j => dist key ≤ dist j

/-- Must a core's command wait for its turn at the TE? -/
def turnWaits (s : State) (clu q : Nat) (x : Bool) : Bool := !sourceTurn s clu q (if x then 2 else 1)

/-! ### Release and acquire (R127 to R132) -/

def scopeCore : Nat := 0
def scopeCluster : Nat := 1
def scopePackage : Nat := 2
def scopePartition : Nat := 3

/-- Does a command served by cluster `clu` write memory in the scope of a core of cluster `c` (assumption 47)? -/
def writesInScope (s : State) (c clu scope : Nat) (e : List Byte) : Bool :=
  if scope = scopeCore then false
  else if scope = scopePartition then true
  else
    (rangesOf e).any fun g => g.write &&
      (if g.space < 2 then scope = scopePackage || clu = c
       else if g.space = 2 then scope = scopePackage
       else if g.space = 3 then false
       else entOpcode e = ocMput ||
         (g.addr / 2 ^ 56 = s.glob.slot && (scope = scopePackage || g.addr / 2 ^ 52 % 16 = c)))

/-- Commands the core issued that have not completed, with the cluster that serves each. -/
def coreCmds (s : State) (c k : Nat) : List (Nat × TeCmd) :=
  (List.range 16).flatMap fun clu => (List.range 8).flatMap fun t =>
    ((s.te clu t).queue.filter fun q => match q.origin with
      | .core cc kk _ _ _ _ => cc == c && kk == k
      | .ring _ _ _ _ => false
      | .sill _ => false).map fun q => (clu, q)

/-- Can a release of the scope complete: the core's own matrix stores performed, and its TE commands that write memory of the
scope complete (R127)? -/
def releaseReady (s : State) (c k scope : Nat) : Bool :=
  (s.core c k).matrix.all (fun m => m.spm.isNone) && (coreCmds s c k).all fun q => !writesInScope s c q.1 scope q.2.entry

/-- A release has completed: the core's later pool stores carry its scope. -/
def release (c k scope : Nat) : State → State := State.modCore c k fun x => { x with released := 1 + scope }

/-- Does the release of a record fail to synchronise with this acquire (R129, R132)? Every agent of the record lies in the
core's cluster, so a scope fails only where it is CORE and the agent another. -/
def scopeFails (k scope : Nat) (r : ScopeRec) : Bool := r.agent != k && (r.scope = scopeCore || scope = scopeCore)

/-- An acquire: a mismatch with the records of earlier loads is counted, and they are done with (R132). -/
def acquire (c k scope : Nat) (s0 : State) (s : State) : State :=
  let before := (s0.core c k).loaded
  let s := if before.any (scopeFails k scope) && !s.sealCore.conf then
      s.modCluster c fun cl => { cl with scopeCheck := cnt32 cl.scopeCheck }
    else s
  s.modCore c k fun x => { x with loaded := x.loaded.filter fun r => !before.contains r }

/-! ### Barriers (R202) -/

def Cluster.barrier (cl : Cluster) (b : Nat) : Barrier := SMap.get Barrier.reset cl.barriers b

def modBarrier (c b : Nat) (f : Barrier → Barrier) : State → State := State.modCluster c fun cl =>
  { cl with barriers := SMap.upd Barrier.reset cl.barriers b f }

/-- The generation of the core's arrival not yet waited for: 1 + it, or 0. -/
def Core.arrivalAt (x : Core) (b : Nat) : Nat := SMap.get 0 x.arrival b

/-- Has the core arrived in the current generation? -/
def arrivedNow (s : State) (c k b : Nat) : Bool := bit ((s.cluster c).barrier b).arrived k

/-- The core arrives, with a release of CLUSTER scope; when every participant has, the generation completes, and each
participant is woken (R172, R202). -/
def arrive (c k b : Nat) (s : State) : State :=
  let s := release c k scopeCluster s
  let y := (s.cluster c).barrier b
  let s := s.modCore c k fun x => { x with arrival := SMap.set 0 x.arrival b (1 + y.gen) }
  let arrived := if bit y.arrived k then y.arrived else y.arrived + 2 ^ k
  if arrived = y.mask then
    forEach (bitsOf 8 y.mask) (fun p => wakeCore c p) (modBarrier c b (fun y => { y with arrived := 0, gen := y.gen + 1 }) s)
  else modBarrier c b (fun y => { y with arrived := arrived }) s

/-- Has the generation of the core's arrival completed? -/
def generationDone (s : State) (c k b : Nat) : Bool :=
  let a := (s.core c k).arrivalAt b
  a != 0 && a - 1 < ((s.cluster c).barrier b).gen

/-- A wait on the barrier completes, with an acquire of CLUSTER scope. -/
def waitDone (c k b : Nat) (s0 : State) (s : State) : State :=
  acquire c k scopeCluster s0 (s.modCore c k fun x => { x with arrival := SMap.set 0 x.arrival b 0 })

/-! ### Flag wait (R203) -/

/-- Does the word meet the condition? -/
def flagMet (s : State) (c k : Nat) (pool : Bool) (a v cond : Nat) : Bool :=
  condHolds cond (leVal (coreBytes s c k pool a 8)) v

/-! ### Effects -/

/-- What an X-slot operation does as its bundle issues, its sources read in the state at issue. -/
def xEffect (c k : Nat) (s0 : State) (op : XOp) (s : State) : State :=
  let x := s0.core c k
  let put := fun (d v : Nat) => s.modCore c k (Core.setS d v)
  match op with
  | .issue q a wake => countCore c k 35 1 (placeCmd c k s0 c q (x.sreg a) false wake none s)
  | .arm q a token wake => countCore c k 36 1 (placeCmd c k s0 c q (x.sreg a) false wake (some token) s)
  | .xissue q a clu wake => countCore c k 35 1 (placeCmd c k s0 clu q (x.sreg a) true wake none s)
  | .cnt a i => put a (SMap.get 0 x.cc i)
  | .err a i =>
    (put a (SMap.get 0 x.teErr i)).modCore c k fun y => { y with teErr := SMap.set 0 y.teErr i 0 }
  | .wait _ _ => s
  | .rel scope => release c k scope s
  | .acq scope => acquire c k scope s0 s
  | .barCfg b a => modBarrier c b (fun y => { y with mask := x.sreg a % 256 }) s
  | .barArrive b => arrive c k b s
  | .barWait b => waitDone c k b s0 s
  | .barSync b => waitDone c k b s0 s
  | .fwait a b _ p cond pool =>
    coreLoaded c k pool (x.sreg a) 8
      (s.modCore c k (Core.setP p (if flagMet s0 c k pool (x.sreg a) (x.sreg b) cond then allLanes else 0)))
  | .wake core => wakeCore c core s
  | .watch a =>
    s.modCore c k fun y => { y with watch := if bit (x.sreg a) 12 then some (x.sreg a % 4096) else none }

end Sys2Proof.Machine
end

