-- ==== Sys2Proof/Machine/PkgState.lean ====
section
/-! DEFINITION. The package's states, and the start of a clear (15, R409, R421; 16, R437). -/
namespace Sys2Proof.Machine

/-- The STATE coding of GLOBAL.PKG_STATE. -/
def PkgState.code : PkgState → Nat
  | .unconfigured => 0
  | .configured => 1
  | .assigned => 2
  | .running => 3
  | .draining => 4
  | .fenced => 5
  | .clearing => 6

/-- The package enters a state: CHANGES counts, and the PKG_STATE event is written; the switch leaves PARK, which only
UNCONFIGURED allows (R384, R387, R409). -/
def enterState (new : PkgState) (s : State) : State :=
  let old := s.glob.state
  let s := if old == .unconfigured then wakeDomain switchDom s else s
  pkgStateEvent old.code new.code
    (s.modGlob fun g => { g with state := new, changes := (g.changes + 1) % 2 ^ 16 })

/-! ### The start of a clear -/

/-- A control command that a fence lets run on (R367). -/
def ctlStays (k : CtlCmd) : Bool :=
  entOpcode k.entry == ocWindow || entOpcode k.entry == ocLensInv || entOpcode k.entry == ocDvaInv

/-- Is a window or translation command in progress? They run on through a fence, to their own completion (R367). -/
def updatesRun (s : State) : Bool := s.hosts.any fun h => h.2.ctl.any ctlStays

/-- Expansion ports with a device, which a clear covers. -/
def clearPorts (s : State) : List Nat := filterBelow 4 fun n => (s.xp n).devReady

/-- CLEAR_CFG.METHOD of a port. -/
def methodOf (s : State) (n : Nat) : Nat := bits s.sealCore.method (2 * n + 1) (2 * n)

/-- Put two bits of METHODS. -/
def putMethod (n m v : Nat) : Nat := v - bits v (2 * n + 1) (2 * n) * 4 ^ n + m * 4 ^ n

/-- The clear starts, or starts again (R431, R437 step 1). -/
def clearStart (s : State) : State :=
  let methods := (clearPorts s).foldl (fun v n => putMethod n (methodOf s n) v) 0
  let s := s.modSill fun l => { l with en := false, frames := [], moves := [], prefetch := [], prefWait := [], evicting := false }
  s.modSeal fun k =>
    { k with phase := 1, portsDone := 0, percent := 0, run := ClearRun.mk methods 0 0 0 }

/-- An accepted REQ = CLEARING takes effect once no window or translation command is in progress: no command changes a
window in CLEARING, and those in progress complete before the clear starts (R59, R367, R421, assumption 76). -/
def settleClear (s : State) : State :=
  if s.glob.clearWait && !updatesRun s then
    clearStart (enterState .clearing (s.modGlob fun g => { g with clearWait := false }))
  else s

end Sys2Proof.Machine
end

