-- ==== Sys2Proof/Machine/TeCmds.lean ====
section
/-! DEFINITION. The commands of the transfer engines: data commands, starts, translations, responses and timers (02, 03,
13). -/
namespace Sys2Proof.Machine

/-- Is a queued command of this code? -/
def isOp (o : Nat) (q : TeCmd) : Bool := entOpcode q.entry == o

/-- COPY: the next command of the TE, if it is one, starts (R369). -/
def execCopy (c : Fin 16) (t : Fin 8) (host : List Byte) (s : State) : Out := .next (startIf (isOp ocCopy) c t host s)

/-- VERIFY (R238). -/
def execVerify (c : Fin 16) (t : Fin 8) (host : List Byte) (s : State) : Out := .next (startIf (isOp ocVerify) c t host s)

/-- PUT (R90, R369). -/
def execPut (c : Fin 16) (t : Fin 8) (host : List Byte) (s : State) : Out := .next (startIf (isOp ocPut) c t host s)

/-- GET (R88, R369). -/
def execGet (c : Fin 16) (t : Fin 8) (s : State) : Out := .next (startIf (isOp ocGet) c t [] s)

/-- MPUT (R102, R369). -/
def execMput (c : Fin 16) (t : Fin 8) (host : List Byte) (s : State) : Out := .next (startIf (isOp ocMput) c t host s)

/-- RPUT (R94, R369). -/
def execRput (c : Fin 16) (t : Fin 8) (host : List Byte) (s : State) : Out := .next (startIf (isOp ocRput) c t host s)

/-- OPUT (R96, R369). -/
def execOput (c : Fin 16) (t : Fin 8) (host : List Byte) (s : State) : Out := .next (startIf (isOp ocOput) c t host s)

/-- LSEPUT (R101, R369). -/
def execLseput (c : Fin 16) (t : Fin 8) (host : List Byte) (s : State) : Out := .next (startIf (isOp ocLseput) c t host s)

/-- ATOMIC (R92, R369). -/
def execAtomic (c : Fin 16) (t : Fin 8) (s : State) : Out := .next (startIf (isOp ocAtomic) c t [] s)

/-- SILL_PREFETCH (R267). -/
def execSillPrefetch (c : Fin 16) (t : Fin 8) (s : State) : Out := .next (startIf (isOp ocPrefetch) c t [] s)

/-- SILL_COMMIT (R268). -/
def execSillCommit (c : Fin 16) (t : Fin 8) (s : State) : Out := .next (startIf (isOp ocCommit) c t [] s)

/-- TE_COMMAND_START: the TE starts the next command of its queue (R363). -/
def execTeCommandStart (c : Fin 16) (t : Fin 8) (host : List Byte) (s : State) : Out :=
  .next (startIf (fun _ => true) c t host s)

/-- ARMED_COMMAND_START: an armed command whose token is not zero starts (R169). -/
def execArmedCommandStart (c : Fin 16) (t : Fin 8) (host : List Byte) (s : State) : Out :=
  .next (startArmed c t host s)

/-- The command of a TE that waits for a walk. -/
def walkingCmd (te : Te) : Option (TeCmd × Nat × Nat) :=
  te.queue.findSome? fun q => match q.phase with
    | .walking das page => some (q, das, page)
    | .queued => none
    | .armed _ => none
    | .pageWait _ _ _ => none
    | .ats _ _ _ => none
    | .pri _ _ _ => none
    | .running => none
    | .done _ => none

/-- TRANSLATION_WALK_COMPLETE: the reads of a miss are done; the command goes on, waits for a page, or fails (R44 to
R46). The virtual address a failure names is the first byte of the command's range that lies in the page; R45 names "the
virtual address" and no more (DEDUCED, assumption 71). -/
def execTranslationWalkComplete (c : Fin 16) (t : Fin 8) (s : State) : Out :=
  match walkingCmd (s.te c t) with
  | none => .next s
  | some (q, das, page) =>
    let s := wakeWalk s das page
    match walkEnd s das page with
    | .leaf tr =>
      let s := cacheTrans c tr s
      .next (proceed c t q.id (s.modTe c t (Te.modCmd q.id fun q => { q with trans := tr :: q.trans })))
    | .away cpn dpa =>
      match pageVerdict s cpn with
      | some st => .next (failCmd c t q.id st q.failAddr dpa q.failOff (noteLost cpn s))
      | none =>
        let s := demandPage cpn s
        if pageState s cpn = pgResident then .next s
        else .next (s.modTe c t (Te.modCmd q.id fun q =>
          { q with phase := .pageWait cpn das page, failDpa := dpa }))
    | .bad st dpa =>
      let s := if st = stUncorrected then ueNote dpa s else s
      .next (failCmd c t q.id st q.failAddr dpa q.failOff s)

/-! ### Host translations (R53 to R55) -/

/-- Every command of the package that waits for a host page, by TE. -/
def atsWaiters (s : State) (x : Nat) (p : TeCmd → Bool) : List (Nat × Nat × Nat) :=
  (List.range 16).flatMap fun c => (List.range 8).flatMap fun t =>
    ((s.te c t).queue.filter fun q => q.hport == x && p q).map fun q => (c, t, q.id)

/-- Does a page of a PASID lie in an entry's range? -/
def AtcEntry.names (e : AtcEntry) (pasid : Option Nat) (page : Nat) : Bool :=
  e.pasid == pasid && 4096 * page / 2 ^ e.log2 == 4096 * e.page / 2 ^ e.log2

/-- The host page a command waits to have translated. -/
def atsPage (q : TeCmd) : Option Nat :=
  match q.phase with
  | .ats _ page _ => some page
  | .pri _ _ _ => none
  | .queued => none
  | .armed _ => none
  | .walking _ _ => none
  | .pageWait _ _ _ => none
  | .running => none
  | .done _ => none

/-- The host page a command has a Page Request out for. -/
def priPage (q : TeCmd) : Option Nat :=
  match q.phase with
  | .pri _ page _ => some page
  | .ats _ _ _ => none
  | .queued => none
  | .armed _ => none
  | .walking _ _ => none
  | .pageWait _ _ _ => none
  | .running => none
  | .done _ => none

def waitsAts (e : AtcEntry) (q : TeCmd) : Bool := (atsPage q).any (e.names q.pasid)
def waitsPri (page : Nat) (q : TeCmd) : Bool := priPage q == some page

/-- A command denied a host page ends PERMISSION, and no byte moves (R54). -/
def denyCmd (c t id : Nat) (s : State) : State :=
  match (s.te c t).cmd id with
  | none => s
  | some q => failCmd c t id stPermission q.failAddr 0 q.failOff s

/-- A Translation Completion for one waiting command: it goes on, asks for the page, or ends PERMISSION (R54). -/
def afterAts (x : Nat) (e : AtcEntry) (w : Nat × Nat × Nat) (s : State) : State :=
  let (c, t, id) := w
  match (s.te c t).cmd id with
  | none => s
  | some q =>
    match q.phase with
    | .ats _ page write =>
      if e.covers q.pasid page write then proceed c t id s
      else if (s.host x).priEn then
        (s.emit (.pageRequest x q.pasid page write)).modTe c t (Te.modCmd id fun q =>
          { q with phase := .pri x page write })
      else denyCmd c t id s
    | .queued => s
    | .armed _ => s
    | .walking _ _ => s
    | .pageWait _ _ _ => s
    | .pri _ _ _ => s
    | .running => s
    | .done _ => s

/-- A command's Page Request has its response, or none in time (R54). -/
def afterPri (success : Bool) (w : Nat × Nat × Nat) (s : State) : State :=
  if success then proceed w.1 w.2.1 w.2.2 s else denyCmd w.1 w.2.1 w.2.2 s

/-! Responses whose data waits for a translation that an invalidation took. -/

/-- Packets of a port's commands that wait to land in host memory, with the page each needs. -/
def hostLandings (s : State) (x : Nat) (pri : Bool) : List (Nat × Nat × (TeCmd × CmdPkt) × Nat) :=
  (List.range 16).flatMap fun c => (List.range 8).flatMap fun t =>
    (landings (s.te c t)).filterMap fun w =>
      match w.2.state with
      | .landing _ bs p =>
        let off := if w.2.pkt.hdr.op.toNat == opLoad then w.2.off else 0
        if w.1.hport == x && p == pri then (landPage s w.1 off bs.length).map fun page => (c, t, w, page) else none
      | .unsent => none
      | .outstanding _ => none
      | .backoff _ => none
      | .done _ => none

/-- A packet that waits to land: it asks for its page, or ends PERMISSION. -/
def landDenied (x : Nat) (ask : Bool) (w : Nat × Nat × (TeCmd × CmdPkt) × Nat) (s : State) : State :=
  let (c, t, v, page) := w
  match v.2.state with
  | .landing i bs _ =>
    if ask then setSlotPkt c t i (.landing i bs true) (s.emit (.pageRequest x v.1.pasid page true))
    else pumpTe c t (packetDone c t i stPermission .free s)
  | .unsent => s
  | .outstanding _ => s
  | .backoff _ => s
  | .done _ => s

/-- A Translation Completion for a packet that waits to land. -/
def landAfterAts (x : Nat) (e : AtcEntry) (w : Nat × Nat × (TeCmd × CmdPkt) × Nat) (s : State) : State :=
  if e.covers w.2.2.1.1.pasid w.2.2.2 true then reland w.1 w.2.1 w.2.2.1 s
  else landDenied x (s.host x).priEn w s

def landAfterPri (x : Nat) (success : Bool) (w : Nat × Nat × (TeCmd × CmdPkt) × Nat) (s : State) : State :=
  if success then reland w.1 w.2.1 w.2.2.1 s else landDenied x false w s

/-- PROGRAM_LOADs of a port that wait for a host page in a stage of their phase. -/
def loadsWaiting (s : State) (x stage : Nat) (p : Nat → Bool) : List (CtlCmd × Nat) :=
  (s.host x).ctl.filterMap fun k => match k.phase with
    | .running st a => if entOpcode k.entry == ocLoadProg && st == stage && p a then some (k, a) else none
    | .queued => none

/-- A Translation Completion for a waiting PROGRAM_LOAD (R54). -/
def loadAfterAts (x : Nat) (e : AtcEntry) (w : CtlCmd × Nat) (s : State) : State :=
  let stage := fun st s => State.modCtl x w.1.ring w.1.index (fun k => { k with phase := .running st w.2 }) s
  if e.covers w.1.pasid w.2 false then stage loadReady s
  else if (s.host x).priEn then stage loadPri (s.emit (.pageRequest x w.1.pasid w.2 false))
  else finishCtl x w.1.ring w.1.index stPermission 0 s

/-- A PROGRAM_LOAD's Page Request has its response, or none in time (R54). -/
def loadAfterPri (x : Nat) (success : Bool) (w : CtlCmd × Nat) (s : State) : State :=
  if success then s.modCtl x w.1.ring w.1.index fun k => { k with phase := .running loadReady w.2 }
  else finishCtl x w.1.ring w.1.index stPermission 0 s

/-! Ring accesses. -/

/-- A ring access is denied: the first entry that waits for the page is discarded, and what stood behind it goes on
(assumption 72). An entry to be read is asked for again when it is next to be taken. -/
def dropRing (x : Nat) (a : RingAsk) (s : State) : State :=
  let mine := fun (o : RingOut) => match o with
    | .entry pasid addr _ => a.write && pasid == a.pasid && addr / 4096 == a.page
    | .signal _ => false
  s.modHost x fun h => { h with ringOut := match h.ringOut with
    | [] => []
    | o :: rest => if mine o then rest else o :: rest }

/-- A Translation Completion for a ring access: satisfied, asked for as a page, or denied. -/
def ringAfterAts (x : Nat) (e : AtcEntry) (a : RingAsk) (s : State) : State :=
  let off := s.modHost x fun h => { h with ringAsks := h.ringAsks.erase a }
  if e.covers a.pasid a.page a.write then off
  else if (s.host x).priEn then
    (off.emit (.pageRequest x a.pasid a.page a.write)).modHost x fun h =>
      { h with ringAsks := h.ringAsks ++ [{ a with pri := true }] }
  else dropRing x a off

/-- A ring access's Page Request has its response, or none in time: it is translated again, or denied. -/
def ringAfterPri (x : Nat) (success : Bool) (a : RingAsk) (s : State) : State :=
  let off := s.modHost x fun h => { h with ringAsks := h.ringAsks.erase a }
  if success then askRing x a.pasid a.page a.write off else dropRing x a off

/-- Ring entries that wait go out as far as they may. -/
def settleRings (x : Nat) (s : State) : State := drainRings x ((s.host x).ringOut.length + 1) s

/-- TRANSLATION_COMPLETION: what the host's translation agent grants for a page range goes into the ATC, and every access
that asked for a page of it goes on, asks again, or is denied (R53, R54). -/
def execTranslationCompletion (x : Fin 2) (pasid : Option (BitVec 20)) (page : BitVec 52) (log2 : Nat) (read write : Bool)
    (s : State) : Out :=
  let e : AtcEntry :=
    { pasid := pasid.map (·.toNat), page := page.toNat, log2 := min 30 (max 12 log2), read := read, write := write }
  let ws := atsWaiters s x (waitsAts e)
  let ls := (loadsWaiting s x loadAts fun _ => true).filter fun w => e.names w.1.pasid w.2
  let ds := (hostLandings s x false).filter fun w => e.names w.2.2.1.1.pasid w.2.2.2
  let rs := (s.host x).ringAsks.filter fun a => !a.pri && e.names a.pasid a.page
  if (ws.isEmpty && ls.isEmpty && ds.isEmpty && rs.isEmpty) || !(s.host x).atsEn then .next s
  else
    let s := if read || write then s.modHost x fun h => { h with atc := (e :: h.atc).take 2048 } else s
    .next (settleRings x (forEach rs (ringAfterAts x e) (forEach ds (landAfterAts x e)
      (forEach ls (loadAfterAts x e) (forEach ws (afterAts x e) s)))))

/-- A Page Request of this page has its response, or none in time. -/
def priAnswer (x page : Nat) (success : Bool) (s : State) : State :=
  let ls := loadsWaiting s x loadPri (· == page)
  let ds := (hostLandings s x true).filter fun w => w.2.2.2 == page
  let rs := (s.host x).ringAsks.filter fun a => a.pri && a.page == page
  settleRings x (forEach rs (ringAfterPri x success) (forEach ds (landAfterPri x success)
    (forEach ls (loadAfterPri x success) (forEach (atsWaiters s x (waitsPri page)) (afterPri success) s))))

/-- PAGE_REQUEST_GROUP_RESPONSE: Success translates again, anything else ends the command PERMISSION (R54). -/
def execPageRequestGroupResponse (x : Fin 2) (page : BitVec 52) (success : Bool) (s : State) : Out :=
  .next (priAnswer x page.toNat success s)

/-- PRI_WAIT_EXPIRY: HOSTIF.PRI_WAIT passes without a response (R54). -/
def execPriWaitExpiry (x : Fin 2) (page : BitVec 52) (s : State) : Out := .next (priAnswer x page.toNat false s)

/-- Does a host range of 2^`log2` bytes hold any byte of the entry's? -/
def AtcEntry.meets (e : AtcEntry) (page log2 : Nat) : Bool :=
  let a := 4096 * page / 2 ^ log2 * 2 ^ log2
  let b := 4096 * e.page / 2 ^ e.log2 * 2 ^ e.log2
  !disjoint a (2 ^ log2) b (2 ^ e.log2)

/-- ATS_INVALIDATE_REQUEST: the named translations leave the ATC at once, so that nothing uses them any more, and a
completion is owed (R55). -/
def execAtsInvalidateRequest (x : Fin 2) (tag : Fin 32) (pasid : Option (BitVec 20)) (page : BitVec 52) (log2 : Nat)
    (s : State) : Out :=
  let l := min 64 (max 12 log2)
  let named := fun (e : AtcEntry) => e.pasid == pasid.map (·.toNat) && e.meets page.toNat l
  .next (s.modHost x fun h =>
    { h with atc := h.atc.filter fun e => !named e, inval := h.inval ++ [(tag.val, page.toNat, l)] })

/-- INVALIDATE_COMPLETION: the completion is sent. Every access that used a translation had its data, or was sent, in the
step that used it, and what a command has still to write is translated again (R55, R72). -/
def execInvalidateCompletion (x : Fin 2) (tag : Fin 32) (s : State) : Out :=
  match (s.host x).inval.find? fun i => i.1 == tag.val with
  | none => .next s
  | some _ =>
    .next ((s.modHost x fun h => { h with inval := h.inval.filter fun j => j.1 != tag.val }).emit (.invalDone x tag))

/-! ### Timers (R84, R106, R107) -/

/-- HOLD_FULL_BACKOFF_EXPIRY (R106). -/
def execHoldFullBackoffExpiry (c : Fin 16) (t : Fin 8) (slot : Fin 512) (s : State) : Out :=
  .next (resendPkt c t slot s)

/-- REMOTE_OPERATION_TIMEOUT (R107). -/
def execRemoteOperationTimeout (c : Fin 16) (t : Fin 8) (slot : Fin 512) (s : State) : Out :=
  .next (timeoutPkt c t slot s)

/-- TID_QUARANTINE_EXPIRY: the slot is free again (R84). -/
def execTidQuarantineExpiry (c : Fin 16) (t : Fin 8) (slot : Fin 512) (s : State) : Out :=
  if (s.te c t).slotAt slot == .quarantined then
    .next (pumpTe c t (s.modTe c t (Te.setSlot slot .free)))
  else .next s

/-- TE_COMMAND_COMPLETION: the command at the head of the queue, if it has ended, is reported: completed or counted, its
fault recorded and its TE stalled, its wake event sent; what its gates held may go (R113, R118, R199, R361, R372). -/
def execTeCommandCompletion (c : Fin 16) (t : Fin 8) (s : State) : Out :=
  .next (pumpTe c t (sillSettle (settleResume (reportHead c t s))))

end Sys2Proof.Machine
end

