-- ==== Sys2Proof/Machine/CtlCmds.lean ====
section
/-! DEFINITION. The taking of ring entries and the control commands (13, R359 to R372). -/
namespace Sys2Proof.Machine

/-! ### Taking (R359, R363) -/

/-- The 64 bytes of a submission entry. -/
def ringEntry (entry : List Byte) : List Byte := fitBytes 64 entry

/-- May the device take the ring's next entry: it can, and for a data ring it is the ring's turn (R359)? -/
def mayTake (s : State) (x r : Nat) : Bool :=
  let q := (s.host x).sqAt r
  ringCould s x r && (q.control || (sourceTurn s q.cluster q.te 0 && ringTurn s q.cluster q.te (256 * x + r)))

/-- A data command joins the queue of the ring's TE with the verdict of its first checks (R359, R363). -/
def takeDataCmd (x r : Nat) (e : List Byte) (s : State) : State :=
  let q := (s.host x).sqAt r
  let gen := (s.host x).gen
  let cmd := fun id =>
    { freshCmd id (.ring x r q.head gen) e q.das .queued [] with hport := x, hgen := gen, pasid := q.pasidOf, cq := q.cq }
  (wakeDomain (endpointDom q.cluster) s).modTe q.cluster q.te fun te =>
    { te with nextId := te.nextId + 1, turn := 0, lastRing := 256 * x + r,
              queue := te.queue ++ [judged s q.cluster q.te (cmd te.nextId)] }

/-- A control command that passes its checks waits to start in ring order; one that fails completes (R360, R363). -/
def takeCtlCmd (x r : Nat) (e : List Byte) (s : State) : State :=
  let q := (s.host x).sqAt r
  let gen := (s.host x).gen
  let now := s.now
  match ctlVerdict s x r e with
  | some st => completeRing x r q.cq q.pasidOf q.head gen e st 0 0 s
  | none =>
    s.modHost x fun h =>
      { h with ctl := h.ctl ++ [{
          ring := r, index := q.head + 2 ^ 32 * h.enables, gen := gen, entry := e, verdict := none, phase := .queued,
          trans := [], reserved := false, waits := [], cmds := [], cq := q.cq, das := q.das, pasid := q.pasidOf,
          taken := now }] }

/-- COMMAND_TAKE: the device takes the ring's next entry, once a completion entry is reserved for it (R359, R363). It reads
the entry untranslated, or through ATS with the ring's PASID; without the translation it asks for it and takes nothing yet
(R53). -/
def execCommandTake (x : Fin 2) (r : Fin 256) (entry : List Byte) (s : State) : Out :=
  let q := (s.host x).sqAt r
  let a := q.base + 64 * (q.head % 2 ^ q.log2)
  if !mayTake s x r then .next s
  else if !hostPageOk s x q.pasidOf (a / 4096) false then .next (askRing x q.pasidOf (a / 4096) false s)
  else
    let e := ringEntry entry
    let s := s.emit (.hostRead x q.pasidOf a 64)
    let s := s.modCq x q.cq fun c => { c with owed := c.owed + 1 }
    let s := if q.control then takeCtlCmd x r e s else takeDataCmd x r e s
    .next (s.modSq x r fun q => { q with head := (q.head + 1) % 2 ^ 32 })

/-- NOP: completes OK in its place, and with ORDER after every earlier command of its ring (R360, R362). -/
def execNop (site : NopSite) (s : State) : Out :=
  match site with
  | .te c t => .next (startIf (isOp 0) c t [] s)
  | .ctl x r => .next (startCtl x r 0 (fun k => finishCtl x r k.index stOk 0) s)

/-! ### Windows and translations -/

/-- WINDOW_UPDATE: the command reaches its EPB and waits for its switch point (R60, R69, R70). -/
def execWindowUpdate (x : Fin 2) (r : Fin 256) (s : State) : Out :=
  .next (settleClear (startCtl x r ocWindow (fun k s =>
    let e := ctlUnit k.entry
    let w := ctlWindow k.entry
    judgeUpdates e w 128 (s.modEpb e fun b => { b with byUpdate := SMap.set 0 b.byUpdate w (1 + x.val) })) s))

/-- WINDOW_UPDATE_SWITCH_POINT: the oldest update of the window takes effect, 8 µs after the one before (R66, R69). -/
def execWindowUpdateSwitchPoint (e : Fin 16) (w : Fin 4096) (s : State) : Out :=
  let s := judgeUpdates e w 128 s
  match waitingUpdates s e w with
  | [] => .next (settleClear s)
  | (x, k) :: _ =>
    if !spaced s e w then .next (settleClear s) else .next (settleClear (judgeUpdates e w 128 (switchPoint x e w k s)))

/-- WINDOW_UPDATE_DRAINED: every request accepted before the switch point has finished (R68). -/
def execWindowUpdateDrained (x : Fin 2) (r : Fin 256) (index : BitVec 32) (s : State) : Out :=
  match (s.host x).ctlNamed r index.toNat with
  | none => .next s
  | some k =>
    match k.phase with
    | .queued => .next s
    | .running st g =>
      let e := ctlUnit k.entry
      let w := ctlWindow k.entry
      if entOpcode k.entry != ocWindow || st != 1 || drainBusy s e w k.waits || oldRoot s e w g then .next s
      else .next (settleClear (finishCtl x r k.index stOk g s))

/-- LENS_INVALIDATE (R62). -/
def execLensInvalidate (x : Fin 2) (r : Fin 256) (s : State) : Out := .next (startCtl x r ocLensInv (lensInvGo x r) s)

/-- LENS_INVALIDATE_DRAINED: every request that used a dropped entry has finished (R62). -/
def execLensInvalidateDrained (x : Fin 2) (r : Fin 256) (index : BitVec 32) (s : State) : Out :=
  match (s.host x).ctlNamed r index.toNat with
  | none => .next s
  | some k =>
    if entOpcode k.entry != ocLensInv || k.phase == .queued || drainBusy s (ctlUnit k.entry) (ctlWindow k.entry) k.waits then
      .next s
    else .next (settleClear (finishCtl x r k.index stOk 0 s))

/-- DVA_INVALIDATE (R49). -/
def execDvaInvalidate (x : Fin 2) (r : Fin 256) (s : State) : Out := .next (settleClear (startCtl x r ocDvaInv (dvaGo x r) s))

/-- DVA_INVALIDATE_DRAINED: every access that used a dropped translation has finished (R49). -/
def execDvaInvalidateDrained (x : Fin 2) (r : Fin 256) (index : BitVec 32) (s : State) : Out :=
  match (s.host x).ctlNamed r index.toNat with
  | none => .next s
  | some k =>
    if entOpcode k.entry != ocDvaInv || k.phase == .queued || k.cmds.any (cmdBusy s) then .next s
    else .next (settleClear (finishCtl x r k.index stOk 0 s))

/-- STREAM_RESET (R126). -/
def execStreamReset (x : Fin 2) (r : Fin 256) (s : State) : Out :=
  .next (startCtl x r ocStreamReset (streamResetGo x r) s)

/-! ### Cores and transfer engines -/

/-- PROGRAM_LOAD: the ring's load goes on if it can, or its next command starts (R142, R370). -/
def execProgramLoad (x : Fin 2) (r : Fin 256) (host : List Byte) (s : State) : Out :=
  match readyLoad s x r with
  | some k => .next (sillSettle (loadGo x r k.index host loadFuel s))
  | none =>
    .next (startCtl x r ocLoadProg (fun k s =>
      sillSettle (loadGo x r k.index host loadFuel
        (s.modCtl x r k.index fun k => { k with reserved := entMeasure k.entry }))) s)

/-- CORE_START: every named core starts at PC (R201, R371). -/
def execCoreStart (x : Fin 2) (r : Fin 256) (s : State) : Out :=
  .next (startCtl x r ocStart (fun k s =>
    forEach (namedCores k.entry) (startCore x (ctlUnit k.entry) (leAt k.entry 16 2)) s) s)

/-- CORE_STOP: every named core halts after its earlier operations (R371). -/
def execCoreStop (x : Fin 2) (r : Fin 256) (s : State) : Out :=
  .next (startCtl x r ocStop (fun k s =>
    let c := ctlUnit k.entry
    settleCores (forEach (namedCores k.entry) (fun i s =>
      stopCore c i (stopValue causeHalt (s.core c i).pc 0 0) .command s) s)) s)

/-- TE_RESUME: once what was in progress has completed, the fault slot is cleared and the TE restarts (R372). -/
def execTeResume (x : Fin 2) (r : Fin 256) (s : State) : Out :=
  .next (startCtl x r ocResume (fun k s =>
    settleResume (if entOpt k.entry then flushTe (ctlUnit k.entry) (leAt k.entry 9 1 % 8) s else s)) s)

/-! ### Sillage (R264) -/

/-- Start a Sillage control command and go through its pages. -/
def startSill (x r op : Nat) (s : State) : State :=
  startCtl x r op (fun k s =>
    sillSettle (match (s.host x).ctlAt r k.index with | some k => advanceCtl x k s | none => s)) s

/-- SILL_ATTACH. -/
def execSillAttach (x : Fin 2) (r : Fin 256) (s : State) : Out := .next (startSill x r ocAttach s)

/-- SILL_DETACH. -/
def execSillDetach (x : Fin 2) (r : Fin 256) (s : State) : Out := .next (startSill x r ocDetach s)

/-- SILL_PIN. -/
def execSillPin (x : Fin 2) (r : Fin 256) (s : State) : Out := .next (startSill x r ocPin s)

/-- SILL_UNPIN. -/
def execSillUnpin (x : Fin 2) (r : Fin 256) (s : State) : Out := .next (startSill x r ocUnpin s)

/-- SILL_MOVE. -/
def execSillMove (x : Fin 2) (r : Fin 256) (s : State) : Out := .next (startSill x r ocMove s)

/-- SILL_REBUILD. -/
def execSillRebuild (x : Fin 2) (r : Fin 256) (s : State) : Out := .next (startSill x r ocRebuild s)

end Sys2Proof.Machine
end

