-- ==== Sys2Proof/Machine/HostOps.lean ====
section
/-! DEFINITION. Host ports: doorbells, the loss of a link, PERST_N and Function Level Resets, the main role, the MSI-X
table and the memory aperture (13, R353 to R358, R377 to R381). -/
namespace Sys2Proof.Machine

/-! ### Doorbells (R356 to R358) -/

/-- A write to BAR2 that is ignored (R356). -/
def doorbellIgnored (x : Nat) : State → State := State.modHost x fun h => { h with dbErr := cnt32 h.dbErr }

/-- A tail doorbell: accepted by its distance from the head, else refused (R357). -/
def tailDoorbell (x r t : Nat) (s : State) : State :=
  let q := (s.host x).sqAt r
  if !q.en then doorbellIgnored x s
  else
    let old := ringFill q.tail q.head
    let new := ringFill t q.head
    if old ≤ new && new ≤ 2 ^ q.log2 then s.modSq x r fun q => { q with tail := t }
    else doorbellEvent x r 0 t (s.modSq x r fun q => { q with dbRange := true })

/-- Does a new head lie between the old head and TAIL, both included (R358)? -/
def headOk (tail head new : Nat) : Bool := ringFill new head ≤ ringFill tail head

/-- A head doorbell of a completion ring (R358). -/
def cqDoorbell (x r v : Nat) (s : State) : State :=
  let q := (s.host x).cqAt r
  if !q.en then doorbellIgnored x s
  else if headOk q.tail q.head v then s.modCq x r fun q => { q with head := v }
  else doorbellEvent x r 1 v (s.modCq x r fun q => { q with dbRange := true })

/-- A head doorbell of the EQ or the FQ (R358). -/
def rqDoorbell (fq : Bool) (x v : Nat) (s : State) : State :=
  let q := (s.host x).rq fq
  if !q.en then doorbellIgnored x s
  else if headOk q.tail q.head v then s.modRq fq x fun q => { q with head := v }
  else doorbellEvent x 0 (if fq then 3 else 2) v (s.modRq fq x fun q => { q with dbRange := true })

/-- A 4-byte write to a doorbell page, if it is the doorbell of something (R356): its tail or head, and of which ring. -/
def doorbellOf (r off : Nat) : Option (Option RingRef) :=
  if off = 0 then some none
  else if off = 0x40 then some (some (.cq (Fin.ofNat 256 r)))
  else if r = 0 && off = 0x80 then some (some .eq)
  else if r = 0 && off = 0xC0 then some (some .fq)
  else none

/-- A head doorbell of a ring the device writes. -/
def headDoorbell (x : Nat) (r : RingRef) (v : Nat) : State → State :=
  match r with
  | .cq i => cqDoorbell x i v
  | .eq => rqDoorbell false x v
  | .fq => rqDoorbell true x v

/-- A write to page `r` of BAR2: an aligned 4-byte write to a doorbell is one, and any other write is ignored and counted. -/
def bar2Write (x r off : Nat) (data : List Byte) (s : State) : State :=
  if data.length != 4 then doorbellIgnored x s
  else match doorbellOf r off with
    | none => doorbellIgnored x s
    | some none => tailDoorbell x r (leAt data 0 4) s
    | some (some h) => headDoorbell x h (leAt data 0 4) s

/-! ### Losing a port (R380) -/

/-- Why a port's rings stop, as RING_STOPPED gives it (R376). -/
def reasonLink : Nat := 0
def reasonFlr : Nat := 1
def reasonPerst : Nat := 2

/-- Submission rings of a port that are enabled and not stopped. -/
def liveRings (s : State) (x : Nat) : List Nat :=
  ((s.host x).sq.filter fun q => q.2.en && !q.2.stopped).map (·.1)

/-- Commands of a port that wait for a host translation end TIMEOUT at once, and so does data that waits to land in host
memory: no host access of theirs remains possible (R380). -/
def dropHostWaits (x : Nat) (s : State) : State :=
  let waits := fun (q : TeCmd) => (atsPage q <|> priPage q).isSome
  let s := forEach (atsWaiters s x waits) (fun w s => match (s.te w.1 w.2.1).cmd w.2.2 with
    | none => s
    | some q => failCmd w.1 w.2.1 w.2.2 stTimeout q.failAddr 0 q.failOff s) s
  let s := forEach (List.range 16) (fun c s => forEach (List.range 8) (fun t s =>
    forEach ((landings (s.te c t)).filter fun w => w.1.hport == x && landSpace w.1 == 3) (reland c t) s) s) s
  forEach (loadsWaiting s x loadAts (fun _ => true) ++ loadsWaiting s x loadPri fun _ => true)
    (fun w => finishCtl x w.1.ring w.1.index stTimeout 0) s

/-- RING_STOPPED goes to the event ring of the other port (R376, R380). -/
def ringStopped (x r reason : Nat) (s : State) : State :=
  eventRecord (1 - x) (mkRecord s 0x04 0 7 0 0 [] (leBytes 1 r ++ leBytes 1 reason ++ leBytes 1 x)) s

/-- What a link loss, a PERST_N and a Function Level Reset have in common (R380). -/
def losePort (x reason : Nat) (s : State) : State :=
  let rings := liveRings s x
  let s := s.modHost x fun h =>
    { h with gen := h.gen + 1, sq := rings.foldl (fun m r => SMap.upd Sq.reset m r fun q => { q with stopped := true }) h.sq,
             atc := [], inval := [], ringAsks := [], ringOut := [] }
  let s := dropHostWaits x s
  forEach rings (fun r => ringStopped x r reason) s

/-- A port's HOSTIF registers after a PERST_N or FLR: their values after power-up, except MAIN (R380). What is not a
register of HOSTIF stays: the link, the reset pin, the commands taken and the counts of losses. -/
def HostPort.resetRegs (h : HostPort) : HostPort :=
  { HostPort.reset with
    ready := h.ready, perst := h.perst, linkUp := h.linkUp, rate := h.rate, width := h.width, main := h.main, gen := h.gen,
    dropGen := h.gen, ctl := h.ctl, enables := h.enables }

/-- Staged writes of a port's HOSTIF registers go with them. -/
def dropStaged (x : Nat) : State → State :=
  State.modGlob fun g => { g with staged := g.staged.filter fun q => q.1 / 2 ^ 26 != x + 1 }

/-- PERST_N and FLR: the port is lost, and its registers are reset (R380). A Function Level Reset keeps the sticky AER log,
as the PCIe specification has it. -/
def resetPort (x reason : Nat) (s : State) : State :=
  let aer := if reason = reasonFlr then (s.host x).aer else none
  dropStaged x ((losePort x reason s).modHost x fun h => { h.resetRegs with aer := aer })

/-! ### The main role (R373, R379) -/

/-- The role moves to a port: ROLE_CHANGE on its event ring, and the held records on its fault ring (R373, R376, R379). A
port whose link is down never receives it. -/
def takeRole (x : Nat) (automatic : Bool) (s : State) : State :=
  if (s.host x).main || !(s.host x).linkUp then s
  else
    let s := (s.modHost (1 - x) fun h => { h with main := false }).modHost x fun h => { h with main := true }
    flushHeld x (eventRecord x (mkRecord s 0x02 0 7 0 0 [] (leBytes 1 x ++ leBytes 1 (b2n automatic))) s)

/-- A TAKE written on a port: the other must allow it, or have its link down (R379). -/
def writeTake (x : Nat) (s : State) : State :=
  if (s.host x).main then s
  else if (s.host (1 - x)).allow || !(s.host (1 - x)).linkUp then takeRole x false s
  else s

/-! ### The MSI-X table and pending bits (R353, R377) -/

/-- The 16 bytes of a table entry. -/
def Msix.bytes (m : Msix) : List Byte := leBytes 8 m.addr ++ leBytes 4 m.data ++ leBytes 4 (b2n m.masked)

/-- A table entry from its bytes; unmasked with its bit pending, it is sent (R377). -/
def msixEntryWrite (x v : Nat) (bs : List Byte) (s : State) : State :=
  let old := SMap.get Msix.reset (s.host x).msix v
  let new : Msix := { addr := leAt bs 0 8, data := leAt bs 8 4, masked := bit (leAt bs 12 4) 0, pending := old.pending }
  let go := old.pending && !new.masked
  let new := { new with pending := old.pending && new.masked }
  let s := s.modHost x fun h => { h with msix := SMap.set Msix.reset h.msix v new }
  if go then s.emit (.msix x v new.addr new.data) else s

/-- Sizes of the table and of the pending-bit array, and where they start in HOSTIF. -/
def msixTable : Nat := 0x100000
def msixPba : Nat := 0x108000

/-- Is an offset of HOSTIF in the table or the array? -/
def inMsix (off : Nat) : Bool := msixTable ≤ off && off < msixPba + 256

/-- One byte of the table or the array. -/
def msixByte (h : HostPort) (off : Nat) : Byte :=
  if off < msixPba then
    ((SMap.get Msix.reset h.msix ((off - msixTable) / 16)).bytes).getD (off % 16) 0
  else
    BitVec.ofNat 8 (maskOf (filterBelow 8 fun i => (SMap.get Msix.reset h.msix (8 * (off - msixPba) + i)).pending))

/-- A write of aligned doublewords or quadwords to the table; the array is read-only, and any other write is dropped. -/
def msixWrite (x off : Nat) (bs : List Byte) (s : State) : State :=
  if off % 4 != 0 || bs.length % 4 != 0 then s
  else
    forEach (List.range (bs.length / 4)) (fun i s =>
      let o := off + 4 * i
      if msixPba ≤ o then s
      else
        let v := (o - msixTable) / 16
        let old := (SMap.get Msix.reset (s.host x).msix v).bytes
        msixEntryWrite x v (patch old (o % 16) ((bs.drop (4 * i)).take 4)) s) s

/-! ### The memory aperture (R381, R435) -/

/-- Is BAR4 of a port open? -/
def apertureOpen (s : State) (x : Nat) : Bool := (s.host x).memEn && !s.sealCore.conf

/-- The device physical address behind an offset. -/
def apertureDpa (s : State) (x off : Nat) : Nat := (s.host x).memBase * 2 ^ 36 + off

/-- Can the host reach a port's apertures at all? A function in D3hot answers configuration requests alone (R352). -/
def hostCan (s : State) (x : Nat) : Bool := s.boot.out && (s.host x).ready && (s.host x).linkUp && !(s.host x).d3hot

/-- AER logs an Unsupported Request: its status bit, and the first request's header (R381). -/
def logAer (x : Nat) (write : Bool) (off : Nat) : State → State := State.modHost x fun h =>
  { h with aer := h.aer <|> some (write, off) }

/-! ### Configuration writes (R53, R352, R447) -/

/-- The configuration the host leaves. With ATS disabled the ATC stays empty, and what waited for a translation goes on
without one. -/
def pciWrite (x : Nat) (cfg : PciCfg) (s : State) : State :=
  let s := s.modHost x fun h =>
    { h with atsEn := cfg.atsEn, priEn := cfg.priEn, cto := cfg.cto % 32, d3hot := cfg.d3hot,
             aer := if cfg.clrAer then none else h.aer }
  let s := if cfg.atsEn then s
    else
      let s := s.modHost x fun h => { h with atc := [], ringAsks := [] }
      let s := forEach (atsWaiters s x fun q => (atsPage q <|> priPage q).isSome) (fun w => proceed w.1 w.2.1 w.2.2) s
      let s := forEach (List.range 16) (fun c s => forEach (List.range 8) (fun t s =>
        forEach ((landings (s.te c t)).filter fun w => w.1.hport == x) (reland c t) s) s) s
      forEach (loadsWaiting s x loadAts (fun _ => true) ++ loadsWaiting s x loadPri fun _ => true) (loadAfterPri x true) s
  settleRings x s

end Sys2Proof.Machine
end

