-- ==== Sys2Proof/Machine/PkgOps.lean ====
section
/-! DEFINITION. Package states, fence entry, the clear, and the replay order (08, R243; 15, R409 to R413; 16, R437 to
R441). -/
namespace Sys2Proof.Machine

/-! ### States (R409) -/

/-- Is the writer the fabric manager: the side-band, or a management packet (R409)? -/
def Path.isFm : Path → Bool
  | .hp _ => false
  | .sideband => true
  | .mgmt _ => true
  | .steward => false

/-- Does a row of the table of R409 allow the change, from this writer and under its condition? -/
def pkgMay (s : State) (fm : Bool) (old new : PkgState) : Bool :=
  match old, new with
  | .unconfigured, .configured => s.placed
  | .configured, .assigned => fm && s.glob.part.isSome
  | .assigned, .running => fm
  | .running, .draining => fm
  | .draining, .running => fm
  | .assigned, .fenced => fm
  | .running, .fenced => fm
  | .draining, .fenced => fm
  | .fenced, .assigned => fm
  | .fenced, .clearing => fm
  | _, _ => false

/-! ### QUIET (R409) -/

/-- Outstanding or quarantined TID slots aside, is a slot in use? -/
def Te.tidBusy (te : Te) : Bool := te.slots.any fun q => match q.2 with
  | .busy _ _ => true
  | .free => false
  | .quarantined => false

/-- PKG_STATE.QUIET. -/
def quiet (s : State) : Bool :=
  (s.clusters.all fun cl => cl.2.tes.all fun te => te.2.queue.isEmpty && !te.2.tidBusy) &&
  (s.epbs.all fun b => b.2.streams.isEmpty && (openSessions b.2).isEmpty) &&
  (s.sill.moves.all (·.inFlight))

/-! ### Fence entry (R411) -/

/-- A command issued by Sillage itself. -/
def TeCmd.ofSill (q : TeCmd) : Bool := match q.origin with
  | .sill _ => true
  | .ring _ _ _ _ => false
  | .core _ _ _ _ _ _ => false

/-- A TE command that a fence tears down: one that has not ended and is not of a Sillage move. -/
def TeCmd.torn (q : TeCmd) : Bool := !q.ofSill && (match q.phase with
  | .done _ => false
  | .queued => true
  | .armed _ => true
  | .walking _ _ => true
  | .pageWait _ _ _ => true
  | .ats _ _ _ => true
  | .pri _ _ _ => true
  | .running => true)

/-- Free the TID slots of a command. -/
def Te.freeSlots (id : Nat) (te : Te) : Te :=
  { te with slots := te.slots.filter fun q => match q.2 with
      | .busy i _ => i != id
      | .free => false
      | .quarantined => true }

/-- Report the heads of a queue while they have ended. -/
def reportHeads (c t : Nat) : Nat → State → State
  | 0, s => s
  | n + 1, s => reportHeads c t n (reportHead c t s)

/-- One TE at fence entry: its commands complete TORN_DOWN, it is idle and unstalled, and its streams start afresh
(assumption 87). -/
def fenceTe (c t : Nat) (s : State) : State :=
  let q := (s.te c t).queue
  let s := forEach (q.filter TeCmd.torn)
    (fun q s => endCmd c t q.id stTornDown (s.modTe c t (Te.freeSlots q.id))) s
  (reportHeads c t q.length s).modTe c t fun te => { te with fault := [], streams := [] }

/-- Every TE that has a command, a slot or a fault. -/
def liveTes (s : State) : List (Nat × Nat) := s.clusters.flatMap fun cl => cl.2.tes.map fun te => (cl.1, te.1)

/-- One control command at fence entry: a load in progress leaves its cores' instruction memory
undefined (R367). -/
def fenceCtl (x : Nat) (k : CtlCmd) (s : State) : State :=
  if ctlStays k then s
  else
    let s := if entOpcode k.entry == ocLoadProg && k.phase != .queued then spoilMemory k.entry s else s
    finishCtl x k.ring k.index stTornDown 0 s

/-- One endpoint at fence entry: held packets and waiting requests are answered TORN_DOWN, the stream table and the hold
buffer are emptied, and the Accord sessions abandoned (R87, R100, R125). -/
def fenceEpb (e : Nat) (s : State) : State :=
  let b := s.epb e
  let s := forEach (heldPkts b ++ b.collide.map (·.pkt) ++ b.pageWait.map (·.pkt)) (fun p => answer e p.hdr stTornDown) s
  let s := unstall e (s.modEpb e fun b => { b with streams := [], collide := [], pageWait := [] })
  forEach b.sessions (fun x => abandon e x 0) s

/-- Every core that has been started and has not halted halts. -/
def fenceCores (s : State) : State :=
  forEach s.clusters (fun cl s => forEach cl.2.cores (fun k s =>
    stopCore cl.1 k.1 (stopValue causeHalt k.2.pc 0 0) .fence s) s) s

def liveCores (s : State) : Nat :=
  (s.clusters.map fun cl => (cl.2.cores.filter fun k => k.2.run != .halted).length).foldl (· + ·) 0

/-- Queued Sillage moves are dropped; those in flight run on (R411). -/
def fenceSill (s : State) : State :=
  let s := forEach (s.sill.moves.filter fun m => !m.inFlight)
    (fun m s => if m.isEvict then cancelEviction m.cpn s else dropMove m.id s) s
  s.modSill fun l => { l with prefetch := [], prefWait := [], evicting := false }

/-- Fence entry: everything of R411 but the change of state, and the TEARDOWN record. -/
def fenceEntry (old : PkgState) (s : State) : State :=
  let cancelled := (s.clusters.map fun cl =>
    (cl.2.tes.map fun te => (te.2.queue.filter TeCmd.torn).length).foldl (· + ·) 0).foldl (· + ·) 0
  let held := (s.epbs.map fun b => (heldPkts b.2).length).foldl (· + ·) 0
  let cores := liveCores s
  let s := forEach (liveTes s) (fun t => fenceTe t.1 t.2) s
  let s := forEach [0, 1] (fun x s => forEach (s.host x).ctl (fenceCtl x) s) s
  let s := fenceSill (forEach (s.epbs.map (·.1)) fenceEpb (fenceCores s))
  let body := leBytes 1 old.code ++ zeros 1 ++ leBytes 1 (s.glob.part.getD 0) ++ zeros 1 ++ leBytes 4 cancelled
    ++ leBytes 4 held ++ leBytes 2 cores
  faultRecord s.mainPort (mkRecord s 0x0A 0 7 0 0 [] body) s

/-! ### The clear (R437 to R441) -/

/-- A stack's tier-0 bytes. -/
def stackBytes : Nat := 68719476736

/-- Tier-0 bytes that a clear covers: the stacks that trained. -/
def clearT0 (s : State) : Nat := stackBytes * (filterBelow 12 fun n => (s.hbm n).ready).length

/-- Usable bytes of a port. -/
def portBytes (s : State) (n : Nat) : Nat := usableGib s n * gib

/-- CLEAR.PERCENT: tier-0 bytes count once filled, and a port's bytes once it has finished. -/
def clearPercent (s : State) (t0 : Nat) : Nat :=
  let k := s.sealCore
  let all := clearT0 s + ((clearPorts s).map (portBytes s)).foldl (· + ·) 0
  if all = 0 then 100 else 100 * (t0 + k.run.t1Bytes + k.run.t2Bytes) / all

/-- A core that a fence is stopping has stopped by the time its tiles are zeroed. -/
def Core.stopped (x : Core) : Core :=
  match x.run with
  | .stopping v _ => { x with run := .halted, stop := v }
  | .halted => x
  | .running => x
  | .held => x
  | .waiting _ => x
  | .waking => x

/-- A core after step 2: its memories, registers, tiles and counts of tokens and commands are zero. -/
def Core.zeroed (x : Core) : Core :=
  { x.stopped with
    imem := [], spm := [], s := [], p := [], v := [], a := [], w := [], tokens := [], cc := [], teErr := [], spmBad := [],
    imemBad := [], spmCe := [], imemCe := [], regBad := false, released := 0, loaded := [], barIn := false, matrix := [] }

/-- A Lens descriptor after step 2: every field zero except WGEN. -/
def LensDesc.zeroed (d : LensDesc) : LensDesc := { LensDesc.reset with wgen := d.wgen }

/-- Step 2 of a clear: on-die state is zero (R437). -/
def clearOnDie (s : State) : State :=
  let cluster := fun (cl : Cluster) =>
    { cl with cores := mapAll Core.reset Core.zeroed cl.cores, tes := [], pool := [], poolBad := [], poolCe := [], scopes := [],
              tlb := [] }
  let epb := fun (b : Epb) =>
    { b with lens := mapAll LensDesc.reset LensDesc.zeroed b.lens, byUpdate := [], byWrite := [], cache := [], streams := [],
             sessions := [], busy := [], collide := [], pageWait := [] }
  { s with clusters := mapAll Cluster.reset cluster s.clusters, epbs := mapAll Epb.reset epb s.epbs,
           glob := { s.glob with dasValid := [] } }

/-- Has every expansion port finished? -/
def portsCleared (s : State) : Bool := (clearPorts s).all (bit s.sealCore.portsDone)

/-- The certificate of the clear, as it stands (R441). -/
def certificate (s : State) (seq result : Nat) : List Byte :=
  let k := s.sealCore
  leBytes 2 seq ++ leBytes 1 (s.glob.part.getD 0) ++ leBytes 1 result ++ leBytes 1 k.run.methods ++ leBytes 1 k.portsDone
  ++ zeros 2 ++ leBytes 8 s.now ++ leBytes 8 k.run.t0Bytes ++ leBytes 8 k.run.t1Bytes ++ leBytes 8 k.run.t2Bytes ++ zeros 24

/-- CLEAR_RESULT (R440, R441). -/
def clearRecord (cert : List Byte) (result : Nat) (s : State) : State :=
  faultRecord s.mainPort (mkRecord s 0x10 result 7 0 0 [] (cert.take 8 ++ (cert.drop 16).take 24)) s

/-- A failed check (R440). -/
def clearFail (result : Nat) (s : State) : State :=
  raising (fun s =>
    clearRecord (certificate s s.sealCore.seq result) result (s.modSeal fun k => { k with phase := 6, result := result })) s

/-- Is a clear running and not failed, before its last step? -/
def clearRuns (s : State) : Bool := !s.boot.thermtrip && s.glob.state == .clearing && 1 ≤ s.sealCore.phase && s.sealCore.phase ≤ 4

/-- After the tier-0 readback, or a port: the phase follows (R437). -/
def clearPhase (s : State) : State :=
  if s.sealCore.phase = 4 && portsCleared s then s.modSeal fun k => { k with phase := 5 } else s

/-- METHODS of the attempt names the method a port is cleared by (R438, R441). -/
def methodUsed (n m : Nat) : State → State := State.modSeal fun k =>
  { k with run := { k.run with methods := putMethod n m k.run.methods } }

/-- One port has been cleared by the method the attempt names, and its samples pass (R438). -/
def portCleared (n : Nat) (s : State) : State :=
  let t := (s.xp n).tierOf n
  let bytes := portBytes s n
  let s := s.modXp n fun x => { x with mem := [], poison := [] }
  let s := s.modSeal fun k =>
    { k with portsDone := if bit k.portsDone n then k.portsDone else k.portsDone + 2 ^ n,
             run := { k.run with t1Bytes := if t = 1 then k.run.t1Bytes + bytes else k.run.t1Bytes,
                                 t2Bytes := if t = 2 then k.run.t2Bytes + bytes else k.run.t2Bytes } }
  clearPhase (s.modSeal fun k => { k with percent := clearPercent s (if 3 ≤ k.phase then clearT0 s else 0) })

/-- A clear that waits for a port that does not come ends TIMEOUT (R440). -/
def clearWaits (s : State) (n : Nat) : Bool := clearRuns s && (s.xp n).devReady && !bit s.sealCore.portsDone n

/-- Every counter and every snapshot copy is zero (R434, R437, R472). -/
def zeroCounters : State → State := State.modCnt fun c =>
  { c with core := [], epb := [], hbm := [], port := [], coreSnap := [], epbSnap := [], hbmSnap := [], portSnap := [] }

/-- Step 6 (R437, R441): the certificate is kept, and the package enters CONFIGURED without a partition. -/
def clearCertify (s : State) : State :=
  let seq := (s.sealCore.seq + 1) % 2 ^ 16
  let cert := certificate s seq 0
  let s := s.modSeal fun k =>
    { k with seq := seq, certs := (k.certs ++ [cert]).drop ((k.certs.length + 1) - 4), log := [], conf := false, phase := 0,
             result := 0, percent := 100 }
  let s := zeroCounters s
  let s := recomputeFences (s.modGlob fun g => { g with part := none, sealed_ := false })
  clearRecord cert 0 (enterState .configured s)

/-! ### Requests (R409, R411, R437) -/

/-- What an accepted change does beyond changing the state. -/
def pkgAction (old new : PkgState) (s : State) : State :=
  match new with
  | .configured => linkPoll s
  | .assigned => recomputeFences (advertise s.glob.part s)
  | .running => s
  | .draining => s
  | .fenced => flushTransit (recomputeFences (advertise none (fenceEntry old s)))
  | .clearing => s
  | .unconfigured => s

/-- A write of PKG_STATE.REQ. An accepted CLEARING waits for the window and translation commands in progress, and until
then no other change is accepted (R59, R421, assumption 76). -/
def pkgRequest (fm : Bool) (new : PkgState) (s : State) : State :=
  let old := s.glob.state
  if s.glob.clearWait then s.modGlob fun g => { g with refused := true }
  else if !pkgMay s fm old new then s.modGlob fun g => { g with refused := true }
  else if new == .clearing then settleClear (s.modGlob fun g => { g with clearWait := true })
  else pkgAction old new (enterState new s)

/-! ### The replay order (R243) -/

/-- Does a step lie in the named range? Steps are counted modulo 2^16. -/
def inReplay (step first count : Nat) : Bool := (step + 2 ^ 16 - first) % 2 ^ 16 < count

/-- An accepted order at one endpoint: open sessions in the range go without a record, and the replay word is written. -/
def replayEpb (first count e : Nat) (s : State) : State :=
  let s := s.modEpb e fun b =>
    { b with sessions := b.sessions.filter fun x => x.root.isSome || !inReplay x.step first count }
  let b := s.epb e
  if !b.notifyEn then s
  else
    targetWrite e (some (8, 2)) [{ pool := true, addr := b.notifyBase * 8192 + 0x1000, len := 8 }]
      (leBytes 8 (first + fld 16 count + fld 63 1)) s

/-- A write of GLOBAL.REPLAY_ORDER; any order the rule does not accept is ignored. -/
def replayOrder (v : Nat) (s : State) : State :=
  let first := bits v 15 0
  let count := bits v 25 16
  let ok := (s.glob.state == .running || s.glob.state == .draining) && s.glob.part == some (bits v 31 26) &&
    1 ≤ count && count ≤ 512
  if !ok then s
  else
    let s := s.modGlob fun g => { g with replaySeq := (g.replaySeq + 1) % 2 ^ 32 }
    let s := forEach (List.range 16) (replayEpb first count) s
    forEach (filterBelow 16 fun c => bit s.boot.enabled c)
      (fun c s => forEach (List.range 8) (fun k => wakeCore c k) s) s

end Sys2Proof.Machine
end

