-- ==== Sys2Proof/Machine/PowerOps.lean ====
section
/-! DEFINITION. Power control: caps, the working limit, the ladder, temperatures and the power domains (14). -/
namespace Sys2Proof.Machine

/-! ### Caps (R391, R392, R397) -/

/-- The TDP of the ordering code, in W; a code that is not GY9600F's, or not read yet, has the lower one (R391,
assumption 39). -/
def tdp (s : State) : Nat := if s.boot.code = 1 then 2000 else 1925

/-- A cap register, which holds the TDP until it is written (R391). -/
def capOf (s : State) (c : Option Nat) : Nat :=
  match c with
  | none => tdp s
  | some w => w

/-- The effective cap C (R391, R396, R397). -/
def effCap (s : State) : Nat :=
  let p := s.power
  let c := min (tdp s) (min (capOf s p.capHost) (capOf s p.capRack))
  let c := if p.warn then min c p.warnCap else c
  if p.orphan then min c p.orphanCap else c

/-- A decrease of C lowers W at once (R392). -/
def lowerLimit (s : State) : State := s.modPower fun p => { p with limit := min p.limit (effCap s) }

/-- Milliseconds since a manager's last heartbeat (R397). -/
def beatAge (s : State) (beat : Nat) : Nat := if beat = 0 then 0xFFFF else min 0xFFFF ((s.now + 1 - beat) / 1000000)

/-- Have both managers been silent for SILENCE (R397)? -/
def silent (s : State) : Bool :=
  s.power.silence * 100 ≤ beatAge s s.power.beat0 && s.power.silence * 100 ≤ beatAge s s.power.beat1

/-- The package is orphaned whenever both ages have reached the bound, once a heartbeat has come (R397). -/
def judgeOrphan (s : State) : State :=
  if s.power.armed && silent s then lowerLimit (raising (State.modPower fun p => { p with orphan := true, evOrphan := true }) s)
  else lowerLimit (s.modPower fun p => { p with orphan := false })

/-! ### The estimate and the ladder (R393 to R395) -/

/-- Does the estimate exceed 0.97 × W (R393)? -/
def overLimit (p : Power) : Bool := 97 * p.limit < 100 * p.estimate

/-- Is the ladder at its lowest rung (R394, R405)? -/
def lowestRung (p : Power) : Bool := p.oppt == 6 && p.duty == 1 && p.hbmIssue == 6

/-- The operating point, duty and HBM issue limit at a rung of the thermal rule (R394, R398). -/
def rungPoint (r : Nat) : Nat := min r 6
def rungDuty (r : Nat) : Nat := 16 - min (r - 6) 15
def rungHbm (r : Nat) : Nat := min (r - 21) 6

/-- Rungs of the ladder: six points, fifteen duties and six HBM limits below the top. -/
def rungs : Nat := 27

/-- The lower of the thermal rung and the present one applies (R404). -/
def applyThermal (p : Power) : Power :=
  { p with duty := min p.duty (rungDuty p.thermalRung), hbmIssue := max p.hbmIssue (rungHbm p.thermalRung) }

/-- One estimate: the duty is clamped to the highest value `fit` that fits while it exceeds the limit, and the HBM issue
limit tightens at the bottom. Otherwise one rung is released where the estimate predicts that the package stays within the
limit, in reverse order: the HBM limit first, where `hbmFit` says that one step less fits, and then the duty (R393, R394,
assumption 40). -/
def estimate (watts fit : Nat) (hbmFit : Bool) (now : Nat) (p : Power) : Power :=
  let p := { p with estimate := if p.pmbusFail then cdiv (watts * 108) 100 else watts }
  if overLimit p then
    let p := { p with fitSince := 0 }
    if p.oppt = 6 && p.duty = 1 then { p with hbmIssue := min 6 (p.hbmIssue + 1) }
    else { p with duty := min p.duty fit, clamp := true }
  else
    let p := { p with fitSince := if p.fitSince = 0 then 1 + now else p.fitSince }
    let p := { p with capUnmet := p.capUnmet && now + 1 < p.fitSince + 1000000 }
    if 0 < p.hbmIssue then (if hbmFit then applyThermal { p with hbmIssue := p.hbmIssue - 1 } else p)
    else if fit ≤ p.duty then p
    else
      let p := applyThermal { p with duty := p.duty + 1 }
      { p with clamp := p.clamp && p.duty < 16 }

/-- The most the working limit may be: the effective cap, and below it what power policy firmware holds (R392, R424,
assumption 82). -/
def limitCap (s : State) : Nat := min (effCap s) (s.power.policy.getD (effCap s))

/-- The working limit every 10 µs (R392). -/
def raiseLimit (p10 : Nat) (s : State) : State :=
  let c := limitCap s
  s.modPower fun p => { p with p10 := p10, limit := if p.limit ≤ p10 + 40 then min c (p.limit + 4) else min c (p10 + 40) }

/-- May the controller move to the point, at which `fit` is the highest duty that fits? It goes where 16/16 fits, or to point
6; it comes up again only in the reverse order of the ladder, from duty 16/16 and no HBM limit, and not while the regulator
acknowledges no command (R394, R498). -/
def pointMay (p : Power) (pt fit : Nat) : Bool :=
  (fit = 16 || pt = 6) && (p.oppt ≤ pt || (p.duty = 16 && p.hbmIssue = 0 && !p.avsFail))

/-- A change of operating point completes: the settle restores the duty, which stays below 16/16 only at point 6, and ends
the clamp; an HBM limit is released rung by rung (R394). Towards a faster point the voltage moves first and the clock second,
towards a slower one the clock first (R390), so that a slower point stands also where its voltage is not acknowledged (R506);
a command that leaves the point as it is and completes ends the failure (assumption 53). -/
def changePoint (point fit : Nat) (s : State) : State :=
  let pt := max point (rungPoint s.power.thermalRung)
  if !pointMay s.power pt fit then s
  else
    let old := s.power.oppt
    let s := if pt < old then (s.emit (.avs pt)).emit (.clock pt)
      else if old < pt then (s.emit (.clock pt)).emit (.avs pt)
      else s
    settleCoresTrim (s.modPower fun p =>
      applyThermal { p with oppt := pt, duty := fit, clamp := false, target := none, avsFail := p.avsFail && old < pt })

/-! ### Temperatures (R398 to R400) -/

/-- The hottest stack (POWER.TEMP.HBM_MAX). -/
def hbmMax (s : State) : Nat := (s.hbms.map fun h => h.2.temp).foldl max 0

/-- One action of the thermal rule (R398). -/
def thermalStep (tj sensor : Nat) (p : Power) : Power :=
  let p := { p with tjMax := tj, sensor := sensor }
  if p.throttleC ≤ tj then
    let p := applyThermal { p with thermalRung := min rungs (p.thermalRung + 1), throttle := true, evThrottle := true }
    if p.oppt < rungPoint p.thermalRung then { p with target := some (rungPoint p.thermalRung) } else p
  else if tj + 3 ≤ p.throttleC then
    { p with thermalRung := p.thermalRung - 1, throttle := p.throttle && 1 < p.thermalRung }
  else p

/-! ### Domains (R384, R387) -/

/-- Has an endpoint nothing queued, outstanding, held or open (R384)? -/
def endpointIdle (s : State) (e : Nat) : Bool :=
  let b := s.epb e
  ((List.range 8).all fun t => (s.te e t).queue.isEmpty && (s.te e t).slots.isEmpty) &&
  (heldPkts b).isEmpty && b.streams.isEmpty && (openSessions b).isEmpty

/-- May a domain enter a state by itself (R384, R387)? -/
def domainMay (s : State) (d : Domain) (dest : DomState) : Bool :=
  match d, dest with
  | .core c k, .park => (s.core c k).run == .halted
  | .pool _, .doze => true
  | .endpoint e, .doze => endpointIdle s e
  | .switch, .doze => true
  | .switch, .park =>
    s.glob.state == .unconfigured && !anyBelow 88 fun n => s.live n || (s.port n).tmode != .none
  | .spm c k, .doze => !(s.domain (coreDom c k)).awake
  | .port n, .doze => (s.port n).en
  | .port n, .off => !(s.port n).en
  | .hbm _, .doze => true
  | .hbm n, .park => bit s.power.hbmPark n
  | .xp n, .off => !(s.xp n).devReady
  | _, _ => false

/-- A domain enters a state. -/
def domainEnter (d : Domain) (dest : DomState) (s : State) : State :=
  match d with
  | .core c k => coreSleep c k true s
  | .hbm n => setDomain d.num dest (if dest = .park then countHbm n 13 1 s else s)
  | .pool _ => setDomain d.num dest s
  | .endpoint _ => setDomain d.num dest s
  | .switch => setDomain d.num dest s
  | .port _ => setDomain d.num dest s
  | .xp _ => setDomain d.num dest s
  | .spm _ _ => setDomain d.num dest s

/-- May a domain that is not in FULL wake? A core's wakes only with the core, and OFF lasts as long as its cause. -/
def domainWakes (s : State) (d : Domain) : Bool :=
  match d with
  | .core c k => (s.core c k).run == .waking
  | .port n => (s.port n).en
  | .xp n => (s.xp n).devReady
  | .switch => s.domain d.num != .trim
  | .pool _ => true
  | .endpoint _ => true
  | .hbm _ => true
  | .spm _ _ => true

/-- A domain has woken; a core goes on at its next bundle, in FULL or TRIM as the operating point has it (R171, R385,
R390). -/
def domainWake (d : Domain) (s : State) : State :=
  let s := setDomain d.num (match d with
    | .core _ _ => runState s
    | .pool _ => .full
    | .endpoint _ => .full
    | .switch => .full
    | .port _ => .full
    | .hbm _ => .full
    | .xp _ => .full
    | .spm _ _ => .full) s
  match d with
  | .core c k => setDomain (spmDom c k) .full (s.modCore c k fun x => { x with run := .running })
  | .pool _ => s
  | .endpoint _ => s
  | .switch => s
  | .port _ => s
  | .hbm _ => s
  | .xp _ => s
  | .spm _ _ => s

end Sys2Proof.Machine
end

