-- ==== Sys2Proof/Machine/SealOps.lean ====
section
/-! DEFINITION. The seal core: the report, its mailboxes, confidential mode, and the supervision of the management
processor (15, R422 to R424; 16, R426 to R436). -/
namespace Sys2Proof.Machine

/-! ### The report (R432, R433) -/

/-- CLUSTERS of GLOBAL.GRADE as a mask of cores, 8 bits per cluster. -/
def coreMask (clusters : Nat) : Nat := ((filterBelow 16 (bit clusters)).map fun c => 255 * 2 ^ (8 * c)).foldl (· + ·) 0

/-- The part of a report the signature covers; its fields are those of this instant. -/
def reportBody (s : State) (vnonce : List Byte) : List Byte :=
  let k := s.sealCore
  let b := s.boot
  let certs := k.certs.length
  let log := k.log.length
  leBytes 2 1 ++ zeros 2 ++ leBytes 4 (320 + 64 * log + 64 * certs + 1280) ++ leBytes 2 0x00A1
  ++ leBytes 1 (b.code + fld 2 b.fault) ++ leBytes 1 (b2n k.conf + fld 1 (b2n s.glob.part.isSome))
  ++ leBytes 1 (s.glob.part.getD 0) ++ leBytes 1 certs ++ leBytes 2 log ++ leBytes 16 (b.pass &&& coreMask b.enabled)
  ++ shake256 (fitBytes 1793 Config.publicKey) ++ fitBytes 64 k.sealImage.digest ++ fitBytes 64 k.stewardImage.digest
  ++ leBytes 4 k.sealImage.svn ++ leBytes 4 k.stewardImage.svn ++ fitBytes 32 vnonce ++ fitBytes 32 k.bnonce
  ++ leBytes 8 s.now ++ zeros 16 ++ (k.log.map (fitBytes 64)).flatten ++ (k.certs.map (fitBytes 64)).flatten

/-- A signed report. The signature is a free value of its digest (assumption 2). -/
def report (s : State) (vnonce : List Byte) : List Byte :=
  let body := reportBody s vnonce
  body ++ fitBytes 1280 (Config.falconSign s.free (shake256 body))

/-! ### Mailboxes (R430, R431) -/

def mcIdentity : Nat := 0x01
def mcReport : Nat := 0x02
def mcConfidential : Nat := 0x03
def mcRetry : Nat := 0x04

def State.mbox (s : State) (m : Nat) : Mbox := SMap.get Mbox.reset s.sealCore.mbox m

def State.modMbox (m : Nat) (f : Mbox → Mbox) (s : State) : State :=
  s.modSeal fun k => { k with mbox := SMap.upd Mbox.reset k.mbox m f }

/-- Are the bytes that must be zero zero? A report's nonce stands in bytes 16 to 47. -/
def mboxZeros (req : List Byte) : Bool :=
  allZero ((req.drop 1).take 15) && allZero (req.drop 48) && (leAt req 0 1 == mcReport || allZero ((req.drop 16).take 32))

/-- What a request comes to: its status, its response, and what it does (R431). -/
def mboxRun (m : Nat) (req : List Byte) (s : State) : Nat × List Byte × State :=
  let k := s.sealCore
  let c := leAt req 0 1
  if c = 0 || mcRetry < c then (stUnsupported, [], s)
  else if !mboxZeros req then (stMalformed, [], s)
  else if c = mcIdentity then
    if k.ident then (stOk, fitBytes 1793 Config.publicKey, s) else (stStateReject, [], s)
  else if c = mcReport then
    if !k.ident then (stStateReject, [], s)
    else if k.noiseFail then (stCheckFailed, [], s)
    else (stOk, report s ((req.drop 16).take 32), s.drawn)
  else if c = mcConfidential then
    if k.conf then (stOk, [], s)
    else if s.glob.state == .assigned && k.log.isEmpty && k.ident then
      (stOk, [], zeroCounters (s.modSeal fun k => { k with conf := true }))
    else (stStateReject, [], s)
  else if m = 2 && s.glob.state == .clearing && k.phase = 6 then (stOk, [], clearStart s)
  else (stStateReject, [], s)

/-- GO is written: ignored while BUSY, else the request joins the seal core's work (R430). What it reads and does is
that of the moment GO is accepted (R432). -/
def mboxGo (m : Nat) (s : State) : State :=
  let b := s.mbox m
  if b.busy then s
  else
    let r := mboxRun m (fitBytes 64 b.req) s
    let s := r.2.2.modMbox m fun b => { b with busy := true }
    s.modSeal fun k => { k with jobs := k.jobs ++ [{ box := m, status := r.1, rsp := r.2.1 }] }

/-- The oldest request ends: BUSY clears, and STATUS and the response stand. -/
def mboxDone (s : State) : State :=
  match s.sealCore.jobs with
  | [] => s
  | j :: js =>
    (s.modSeal fun k => { k with jobs := js }).modMbox j.box fun b =>
      { b with busy := false, status := j.status, rsp := j.rsp }

/-- May mailbox `m` be used: mailboxes 0 and 1 through their host port, 2 through the side-band or MGMT (R430)? -/
def mboxReach (s : State) (m : Nat) : Bool := s.sealCore.ready && (if m < 2 then hostCan s m else s.boot.out)

/-- A request written whole into a mailbox, and GO. -/
def mboxRequest (m : Nat) (req : List Byte) (s : State) : State :=
  if !mboxReach s m || (s.mbox m).busy then s
  else mboxGo m (s.modMbox m fun b => { b with req := fitBytes 64 req })

/-! ### The management processor (R422 to R424) -/

/-- The management processor is held in reset, its queues and inbox are emptied, and its power policy holds no limit (R422,
R424). -/
def restartMp (cause : Nat) (s : State) : State :=
  raising (fun s =>
    let s := s.modMgmt fun m =>
      { m with up := false, restarts := satInc 0xFF m.restarts, cause := cause, restarted := true, restarting := true,
               inbox := [], answers := [], tid := 0, sensors := [], relay := none }
    (s.modSw fun w => { w with mirrorQ := [] }).modPower fun p => { p with policy := none }) s

/-- The sensors steward exposes, in the order of `PldmSensor`: TJ_MAX, HBM_MAX, package power, W, clear PERCENT, package
state, CAP_UNMET, THROTTLE and clear PHASE (R460). -/
def sensorValues (s : State) : List Nat :=
  [s.power.tjMax, hbmMax s, s.power.power, s.power.limit, s.sealCore.percent, s.glob.state.code, b2n s.power.capUnmet,
   b2n s.power.throttle, s.sealCore.phase]

/-- A steward image has verified, and steward runs; or none has, and the processor stays in reset (R422, R423, R448). -/
def releaseMp (image : Option Image) (s : State) : State :=
  match image with
  | none => (s.modMgmt fun m => { m with up := false, restarting := false }).modBoot fun b => { b with state := 4 }
  | some i =>
    ((s.modMgmt fun m => { m with up := true, restarting := false, sensors := sensorValues s }).modSeal fun k =>
      { k with stewardImage := { digest := fitBytes 64 i.digest, svn := i.svn % 2 ^ 32 } }).modBoot fun b => { b with state := 3 }

end Sys2Proof.Machine
end

