-- ==== Sys2Proof/Machine/BootOps.lean ====
section
/-! DEFINITION. Resets, the power-up sequence, the grade, the thermal trip and the JTAG port (00, R1 to R6; 14, R401; 17,
R446 to R452; 20, R497, R499, R503). -/
namespace Sys2Proof.Machine

/-! ### Resets (R1, R446, R497, R499) -/

/-- Every die back to its state after power-up. What lies outside stands: the pins, and the bytes of the expansion devices
(R442). The queue of commands, what has left the package and the count of free values are the model's own. -/
def fullReset (s : State) : State :=
  { State.reset with
    pending := s.pending, free := s.free, out := s.out,
    hosts := [0, 1].foldl (fun h x => SMap.upd HostPort.reset h x fun p => { p with perst := (s.host x).perst })
      State.reset.hosts,
    xps := mapAll Xp.reset (fun x => { Xp.reset with mem := x.mem }) s.xps,
    boot := { Boot.reset with rstN := s.boot.rstN, refclk := s.boot.refclk, thermtrip := s.boot.thermtrip } }

/-- The device leaves reset if RST_N is high and REFCLK_CORE runs; time counts from here (R447). -/
def leaveReset (s : State) : State :=
  { s with now := 0 }.modBoot fun b => { b with out := b.rstN && b.refclk }

/-- Do the clocks that a thermal trip stops run (R401)? -/
def clocksRun (s : State) : Bool := s.boot.out && !s.boot.thermtrip

/-! ### Grade (R4 to R6) -/

/-- Clusters whose eight cores all pass BIST. -/
def passing (pass : Nat) : List Nat := filterBelow 16 fun c => bits pass (8 * c + 7) (8 * c) = 255

/-- The substrate grade code gives how many clusters are wanted off, or is invalid. -/
def wantOff (code : Nat) : Option Nat :=
  match code with
  | 1 => some 0
  | 2 => some 2
  | _ => none

/-- grade_fault: 0 none, 1 BIST_SHORTFALL, 2 INVALID_CODE. -/
def gradeFault (code pass : Nat) : Nat :=
  match wantOff code with
  | none => 2
  | some w => if w < 16 - (passing pass).length then 1 else 0

/-- The enabled clusters: those that pass, less as many from the highest down as are still wanted off. -/
def enabledOf (code pass : Nat) : List Nat :=
  let ok := passing pass
  match wantOff code with
  | none => []
  | some w => ok.take (ok.length - (w - (16 - ok.length)))

/-- A core and a cluster as BIST leaves them: memories zero with valid check bits, registers, tiles, tokens and ASTAT zero,
and halted (R150). -/
def Core.bist (x : Core) : Core :=
  { x.zeroed with run := .halted, exactRange := false, sat := false, nan := false, parStop := false }

def Cluster.bist (cl : Cluster) : Cluster :=
  { cl with cores := mapAll Core.reset Core.bist cl.cores, pool := [], poolBad := [], poolCe := [] }

/-- BIST ends: the arrays, the grade, the map and the ready bits; the cores of a disabled cluster are in OFF (R3, R150,
R449). -/
def bistDone (code pass : Nat) (s : State) : State :=
  let on := enabledOf code pass
  let s := { s with clusters := mapAll Cluster.reset Cluster.bist s.clusters }
  let s := s.modBoot fun b =>
    { b with bistDone := true, code := code, fault := gradeFault code pass, enabled := maskOf on, pass := pass,
             epbReady := 0xFFFF }
  forEach (filterBelow 16 fun c => !on.contains c)
    (fun c => forEach (List.range 8) fun k => setDomain (coreDom c k) .off) s

/-! ### Readiness (R447) -/

/-- The clocks lock: the switch and the limit controller run, and every enabled port enters DETECT. The counters run from
here too (assumption 42). -/
def switchReady (p10 : Nat) (s : State) : State :=
  let s := s.modSw fun w => { w with ready := true }
  let s := s.modBoot fun b => { b with counters := true }
  let s := s.modPower fun p => { p with running := true, p10 := p10, limit := p10 + 40 }
  forEach (List.range 88) startTraining s

/-- The seal firmware runs from an image, with a fresh boot nonce (R428, R429). -/
def sealRuns (i : Image) (s : State) : State :=
  let nonce := leBytes 32 s.draw
  (s.drawn.modSeal fun k =>
    { k with ready := true, bnonce := nonce, sealImage := { digest := fitBytes 64 i.digest, svn := i.svn % 2 ^ 32 } }).modBoot
      fun b => { b with state := 2 }

/-- The ROM has read both flash copies (R448). -/
def flashRead (primary second : Option Image) (s : State) : State :=
  match primary, second with
  | some i, _ => sealRuns i s
  | none, some i => sealRuns i (s.modBoot fun b => { b with copy := true })
  | none, none => s.modBoot fun b => { b with state := 1 }

/-- The lane reference of a side is lost: every lane of its 22 ports loses lock, and the ports go down (R342, R499). -/
def sideLost (side : Nat) (s : State) : State :=
  forEach ((List.range 22).map (22 * side + ·)) (fun n s =>
    if (s.port n).state == .disabled then s
    else
      portGoDown n .disabled (s.modLanes n fun p =>
        [0, 1, 2, 3].foldl (fun p k => p.modLane k fun l => { l with lol := true, locked := false, ts := .idle })
          (p.setFailed 15))) s

/-- THERMTRIP_N asserts: the compute, endpoint, switch and HBM clocks stop and the lanes idle. Nothing of those units can
be used again before a full power-up, so their state is dropped (R401, assumption 43). -/
def tripped (s : State) : State :=
  { s with
    boot := { s.boot with thermtrip := true, epbReady := 0, counters := false },
    hosts := mapAll HostPort.reset (fun h => { HostPort.reset with perst := h.perst, main := h.main, gen := h.gen + 1 }) s.hosts,
    sw := Switch.reset, ports := [], epbs := [], clusters := [], dev := [], ue := [], ce := [], hbms := [],
    xps := mapAll Xp.reset (fun x => { Xp.reset with mem := x.mem }) s.xps,
    sill := Sillage.reset, cnt := Counters.reset,
    power := { s.power with domains := Power.reset.domains } }

/-! ### JTAG (R435, R503) -/

/-- IDCODE. -/
def jtagIdcode : Nat := 0x1960056B

/-- What the TAP shifts out: the identification code, the bypass bit, or the cells of the boundary-scan register, whose
values are those of the pins: a free value (assumption 2). Every code the manual does not name selects the bypass register, as
IEEE 1149.1 has it (assumption 50). -/
def jtagShift (i : JtagInstr) (s : State) : State :=
  match i with
  | .idcode => s.emit (.jtag jtagIdcode 32)
  | .bypass => s.emit (.jtag 0 1)
  | .boundary =>
    if s.sealCore.conf then s.emit (.jtag 0 1)
    else s.drawn.emit (.jtag (s.draw % 2 ^ Config.boundaryCells) Config.boundaryCells)
  | .other => s.emit (.jtag 0 1)

end Sys2Proof.Machine
end

