-- ==== Sys2Proof/Machine/BootCmds.lean ====
section
/-! DEFINITION. Commands of the resets, the power-up sequence and JTAG (14, R401; 17, R446 to R452; 20, R497 to R503). -/
namespace Sys2Proof.Machine

/-- RST_N_RISE (R447). -/
def execRstNRise (s : State) : Out :=
  if s.boot.rstN then .next s else .next (leaveReset (s.modBoot fun b => { b with rstN := true }))

/-- RST_N_PULSE: of 10 µs or more, a full reset that also ends THERMTRIP_N (R446). -/
def execRstNPulse (ns : Nat) (s : State) : Out :=
  if ns < 10000 || !s.boot.rstN then .next s
  else .next (leaveReset (fullReset (s.modBoot fun b => { b with thermtrip := false })))

/-- VDD_AON_BROWNOUT: a full reset (R497). -/
def execVddAonBrownout (s : State) : Out := .next (leaveReset (fullReset s))

/-- REFCLK_CORE_LOSS: of 1 µs, a full reset that lasts until the clock returns (R499). -/
def execRefclkCoreLoss (ns : Nat) (s : State) : Out :=
  if ns < 1000 then .next s else .next (leaveReset (fullReset (s.modBoot fun b => { b with refclk := false })))

/-- REFCLK_CORE_RETURN (R499). -/
def execRefclkCoreReturn (s : State) : Out :=
  if s.boot.refclk then .next s else .next (leaveReset (s.modBoot fun b => { b with refclk := true }))

/-- LANE_REFERENCE_LOSS (R499). -/
def execLaneReferenceLoss (side : Fin 4) (s : State) : Out := .next (linkPoll (sideLost side s))

/-- SEAL_FIRMWARE_VERIFIED: the images of the two flash copies, where they verify (R428, R448). -/
def execSealFirmwareVerified (primary second : Option Image) (s : State) : Out :=
  if s.boot.out && s.boot.state == 0 && !s.sealCore.ready then .next (flashRead primary second s) else .next s

/-- BIST_COMPLETE: the substrate grade code, and bit 8c + k where core k of cluster c passes (R4 to R6, R447). -/
def execBistComplete (code : Fin 4) (pass : BitVec 128) (s : State) : Out :=
  if clocksRun s && !s.boot.bistDone then .next (bistDone code pass.toNat s) else .next s

/-- HBM_TRAINING_COMPLETE: a stack is trained and zero-filled, or has failed (R256, R451, R452). -/
def execHbmTrainingComplete (n : Fin 12) (ok : Bool) (s : State) : Out :=
  if !clocksRun s || (s.hbm n).ready || (s.hbm n).fail then .next s
  else .next (sillSettle (s.modHbm n fun h => { h with ready := ok, fail := !ok }))

/-- IDENTITY_DERIVED: the identity, or none (R426, R427). -/
def execIdentityDerived (ok : Bool) (s : State) : Out :=
  if !s.sealCore.ready || s.sealCore.ident || s.sealCore.identFail then .next s
  else .next (s.modSeal fun k => { k with ident := ok, identFail := !ok })

/-- STEWARD_RELEASED: steward has verified, or has not (R447, R448). -/
def execStewardReleased (image : Option Image) (s : State) : Out :=
  if s.sealCore.ready && !s.mgmt.up && !s.mgmt.restarting && s.boot.state == 2 then .next (releaseMp image s) else .next s

/-- XP_ENUMERATION: a directly attached Type 3 device is made ready; any other leaves the port unused (R257, R258). -/
def execXpEnumeration (n : Fin 4) (dev : XpDevice) (s : State) : Out :=
  if !s.mgmt.up || !(s.xp n).linkUp || (s.xp n).devReady then .next s
  else
    match dev with
    | .unsupported => .next s
    | .type3 capacity =>
      .next (sillSettle (setDomain (xpDom n) .full (s.modXp n fun x => { x with devReady := true, reported := capacity })))

/-- SWITCH_READY (R308, R337, R392, R447). -/
def execSwitchReady (p10 : Nat) (s : State) : Out :=
  if clocksRun s && !s.sw.ready then .next (switchReady p10 s) else .next s

/-- THERMTRIP (R401). -/
def execThermtrip (s : State) : Out := if clocksRun s then .next (tripped s) else .next s

/-- JTAG_INSTRUCTION (R435, R503). -/
def execJtagInstruction (i : JtagInstr) (s : State) : Out := .next (jtagShift i s)

end Sys2Proof.Machine
end

