-- ==== Sys2Proof/Machine/CoreIssue.lean ====
section
/-! DEFINITION. The issue of a bundle: its checks, what holds it back, and what it does (05, R143 to R145, R148, R170, R171;
06, R180, R181, R184 to R187, R205). -/
namespace Sys2Proof.Machine

/-! ### Runtime conditions (R186, R187, R190, R194, R196, R198, R202 to R204) -/

/-- A failed check: its cause, and CODE. -/
structure Failure where
  cause : Nat
  code  : Nat
  deriving DecidableEq, Repr

/-- The first of some conditions that fails. -/
def firstOf (l : List (Bool × Nat)) : Option Failure :=
  (l.find? (·.1)).map fun c => { cause := c.2, code := 0 }

/-- ALIGN and BOUNDS of an access of `n` bytes whose address is a multiple of `g`. -/
def accessFault (pool : Bool) (a n g : Nat) : List (Bool × Nat) :=
  [(a % g != 0, causeAlign), (spaceBytes pool < a + n, causeBounds)]

def sFault (x : Core) (op : SOp) : Option Failure :=
  match op with
  | .ld pool size _ _ a imm => firstOf (accessFault pool (saddr x a imm) size size)
  | .st pool size _ a imm => firstOf (accessFault pool (saddr x a imm) size size)
  | .csRd _ i => firstOf [(!csReadable i, causeOperand)]
  | .csWr _ i => firstOf [(!csWritable i, causeOperand)]
  | .trap code => some { cause := causeTrap, code := code }
  | .nop | .alu _ _ _ _ | .mul _ _ _ _ | .sel _ _ _ _ | .alui _ _ _ _ | .mov16 _ _ _ _ | .fp _ _ _ _ _ | .fcmp _ _ _ _
  | .fcvtI _ _ | .icvtF _ _ | .pset _ _ | .pget _ _ | .plog _ _ _ _ | .pcnt _ _ | .br _ _ _ _ | .bp _ _ _ | .j _ | .jal _ _
  | .jr _ | .wait | .halt => none

def vFault (x : Core) (w : VWord) : Option Failure :=
  match w.op with
  | .tget _ _ a => firstOf [(63 < x.sreg a, causeBounds)]
  | .tput _ _ a => firstOf [(63 < x.sreg a, causeBounds)]
  | .ld pool _ a imm => firstOf (accessFault pool (vaddr x a imm 64) 256 64)
  | .ldbc pool _ a imm => firstOf (accessFault pool (vaddr x a imm 4) 4 4)
  | .st pool _ a imm => firstOf (accessFault pool (vaddr x a imm 64) 256 64)
  | .int _ _ _ _ | .imin _ _ _ _ | .icmp _ _ _ _ | .sel _ _ _ _ | .fp _ _ _ _ _ | .fmin _ _ _ _ | .fcmp _ _ _ _
  | .div _ _ _ | .sqrt _ _ | .exp _ _ | .expd _ _ _ | .fcvtI _ _ | .icvtF _ _ | .narrow _ _ _ _ | .widen _ _ _ | .red _ _ _
  | .tmax _ _ _ | .texp _ _ | .tsum _ _ | .mov _ _ | .ext _ _ _ => none

def mFault (x : Core) (op : MOp) : Option Failure :=
  match op with
  | .mma f _ a b m _ _ =>
    firstOf [(mmaRows x m = 0 || 64 < mmaRows x m, causeOperand),
             (x.sreg a % 64 != 0 || x.sreg b % 64 != 0, causeAlign),
             (spmBytes < x.sreg a + f.bytes || spmBytes < x.sreg b + f.bytes, causeBounds)]
  | .mst _ a fmt _ _ => firstOf (accessFault false (x.sreg a) (storeFmt fmt).bytes 64)
  | .wst _ a _ => firstOf (accessFault false (x.sreg a) wideBytes 64)
  | .wld _ a => firstOf (accessFault false (x.sreg a) wideBytes 64)
  | .mscale _ _ => none
  | .wcvt _ _ _ => none

def xFault (s : State) (c k : Nat) (op : XOp) : Option Failure :=
  let x := s.core c k
  let bar := fun b => (s.cluster c).barrier b
  match op with
  | .issue _ a _ => firstOf (accessFault false (x.sreg a) entryBytes 64)
  | .arm q a token _ =>
    firstOf (accessFault false (x.sreg a) entryBytes 64 ++ [(armedElsewhere s c k q token, causeSync)])
  | .xissue _ a _ _ => firstOf (accessFault false (x.sreg a) entryBytes 64)
  | .barCfg b _ => firstOf [((bar b).arrived != 0, causeSync)]
  | .barArrive b => firstOf [(!bit (bar b).mask k, causeSync)]
  | .barWait b => firstOf [(x.arrivalAt b = 0, causeSync)]
  | .barSync b => firstOf [(!x.barIn && !bit (bar b).mask k, causeSync)]
  | .fwait a _ _ _ _ pool => firstOf (accessFault pool (x.sreg a) 8 8)
  | .watch a => firstOf [(2 ^ 13 ≤ x.sreg a, causeOperand)]
  | .cnt _ _ | .err _ _ | .wait _ _ | .rel _ | .acq _ | .wake _ => none

/-- The first failing operation of a bundle, in slot order (R186). -/
def bundleFault (s : State) (c k : Nat) (b : Bundle) : Option (Nat × Failure) :=
  let x := s.core c k
  let at_ := fun (slot : Nat) (f : Option Failure) => f.map fun f => (slot, f)
  at_ 0 (sFault x b.s) <|> at_ 1 (b.v.bind (vFault x)) <|> at_ 2 (b.m.bind (mFault x)) <|> at_ 3 (b.x.bind (xFault s c k))

/-! ### Illegal bundles (R187) -/

/-- Scalar registers other than s0, predicates and accumulator tiles a bundle writes, each as often as it is written. No
other register can be written by two slots. -/
def scalarWrites (b : Bundle) : List Nat :=
  let s := match b.s with
    | .alu _ d _ _ | .mul _ d _ _ | .sel d _ _ _ | .alui _ d _ _ | .mov16 _ d _ _ | .ld _ _ _ d _ _ | .fp _ d _ _ _
    | .fcmp _ d _ _ | .fcvtI d _ | .icvtF d _ | .pget d _ | .pcnt d _ | .jal d _ | .csRd d _ => [d]
    | .nop | .st _ _ _ _ _ | .pset _ _ | .plog _ _ _ _ | .br _ _ _ _ | .bp _ _ _ | .j _ | .jr _ | .trap _ | .csWr _ _
    | .wait | .halt => []
  let v := match b.v with
    | some { op := .ext d _ _, pred := _ } => [d]
    | _ => []
  let x := match b.x with
    | some (.cnt a _) => [a]
    | some (.err a _) => [a]
    | _ => []
  (s ++ v ++ x).filter (· != 0)

def predWrites (b : Bundle) : List Nat :=
  let s := match b.s with
    | .pset p _ => [p]
    | .plog _ d _ _ => [d]
    | _ => []
  let v := match b.v with
    | some { op := .icmp _ p _ _, pred := _ } => [p]
    | some { op := .fcmp _ p _ _, pred := _ } => [p]
    | _ => []
  let x := match b.x with
    | some (.fwait _ _ _ p _ _) => [p]
    | _ => []
  s ++ v ++ x

def accWrites (b : Bundle) : List Nat :=
  let v := match b.v with
    | some { op := .texp _ t, pred := _ } => [t]
    | some { op := .tput _ t _, pred := _ } => [t]
    | _ => []
  let m := match b.m with
    | some (.mma _ t _ _ _ _ ex) => if ex then [] else [t]
    | some (.mscale t _) => [t]
    | some (.wcvt t _ _) => [t]
    | _ => []
  v ++ m

def twice (l : List Nat) : Bool := l.eraseDups.length != l.length

def illegalBundle (b : Bundle) : Bool := twice (scalarWrites b) || twice (predWrites b) || twice (accWrites b)

/-! ### Reads that meet an error (R148) -/

/-- Scratchpad and pool bytes a bundle reads, by slot. -/
def bundleReads (x : Core) (b : Bundle) : List (Nat × Bool × Nat × Nat) :=
  let s := match b.s with
    | .ld pool size _ _ a imm => [(0, pool, saddr x a imm, size)]
    | _ => []
  let v := match b.v with
    | some { op := .ld pool _ a imm, pred := _ } => [(1, pool, vaddr x a imm 64, 256)]
    | some { op := .ldbc pool _ a imm, pred := _ } => [(1, pool, vaddr x a imm 4, 4)]
    | _ => []
  let m := match b.m with
    | some op => (matrixReads x op).map fun r => (2, false, r.1, r.2)
    | none => []
  let e := match b.x with
    | some (.issue _ a _) => [(3, false, x.sreg a, entryBytes)]
    | some (.arm _ a _ _) => [(3, false, x.sreg a, entryBytes)]
    | some (.xissue _ a _ _) => [(3, false, x.sreg a, entryBytes)]
    | some (.fwait a _ _ _ _ pool) => [(3, pool, x.sreg a, 8)]
    | _ => []
  s ++ v ++ m ++ e

/-- Scratchpad and pool bytes its S and V slots write. -/
def bundleStores (x : Core) (b : Bundle) : List (Bool × Nat × Nat) :=
  let s := match b.s with
    | .st pool size _ a imm => [(pool, saddr x a imm, size)]
    | _ => []
  let v := match b.v with
    | some { op := .st pool _ a imm, pred := _ } => [(pool, vaddr x a imm 64, 256)]
    | _ => []
  s ++ v

/-- The slot of the first read that meets an error that cannot be corrected. -/
def parityFault (s : State) (c k : Nat) (b : Bundle) : Option Nat :=
  ((bundleReads (s.core c k) b).find? fun r => coreBad s c k r.2.1 r.2.2.1 r.2.2.2).map (·.1)

/-! ### What holds a bundle back (R144, R145, R170, R359) -/

/-- Accumulator and wide tiles a bundle reads or writes. -/
def accUses (b : Bundle) : List Nat :=
  let v := match b.v with
    | some { op := .tmax _ _ t, pred := _ } => [t]
    | some { op := .texp _ t, pred := _ } => [t]
    | some { op := .tsum _ t, pred := _ } => [t]
    | some { op := .tget _ t _, pred := _ } => [t]
    | some { op := .tput _ t _, pred := _ } => [t]
    | _ => []
  let m := match b.m with
    | some (.mma _ t _ _ _ _ ex) => if ex then [] else [t]
    | some (.mscale t _) => [t]
    | some (.mst t _ _ _ _) => [t]
    | some (.wcvt t _ _) => [t]
    | _ => []
  v ++ m

def wideUses (b : Bundle) : List Nat :=
  match b.m with
  | some (.mma _ t _ _ _ _ ex) => if ex then [t] else []
  | some (.wst t _ _) => [t]
  | some (.wld t _) => [t]
  | some (.wcvt _ w _) => [w]
  | _ => []

/-- The token a matrix operation signals. -/
def MOp.token : MOp → Option Nat
  | .mst _ _ _ _ tok => tok
  | .wst _ _ tok => tok
  | .wcvt _ _ tok => tok
  | .mma _ _ _ _ _ _ _ => none
  | .mscale _ _ => none
  | .wld _ _ => none

/-- Would the operation raise its token above 255, with those already in the matrix unit (R170)? -/
def tokenFull (x : Core) (op : MOp) : Bool :=
  match op.token with
  | none => false
  | some t => 255 ≤ SMap.get 0 x.tokens t + (x.matrix.filter fun m => m.token == some t).length

/-- Do the bundle's tiles or scratchpad bytes wait for a matrix operation that has not finished (R144, R191)? -/
def waitsMatrix (x : Core) (b : Bundle) : Bool :=
  let ranges := ((bundleReads x b).filter fun r => !r.2.1).map (fun r => (r.2.2.1, r.2.2.2))
    ++ ((bundleStores x b).filter fun r => !r.1).map fun r => (r.2.1, r.2.2)
  x.matrix.any fun m =>
    (match m.acc with
      | some (t, _) => (accUses b).contains t
      | none => false) ||
    (match m.wide with
      | some (t, _) => (wideUses b).contains t
      | none => false) ||
    (match m.spm with
      | some (a, bs) => ranges.any fun r => !disjoint a bs.length r.1 r.2
      | none => false)

/-- Does the X slot find its TE's queue full, or wait for its turn there? -/
def waitsTe (s : State) (c : Nat) (b : Bundle) : Bool :=
  match b.x with
  | some (.issue q _ _) => queueFull s c q || turnWaits s c q false
  | some (.arm q _ _ _) => queueFull s c q || turnWaits s c q false
  | some (.xissue q _ clu _) => queueFull s clu q || turnWaits s clu q true
  | _ => false

/-- Does the X slot hold a release that is not complete? -/
def waitsScope (s : State) (c k : Nat) (b : Bundle) : Bool :=
  match b.x with
  | some (.rel scope) => !releaseReady s c k scope
  | some (.barArrive _) => !releaseReady s c k scopeCluster
  | some (.barSync _) => !(s.core c k).barIn && !releaseReady s c k scopeCluster
  | _ => false

/-- Does the X slot hold a te.wait or a barrier operation that is not satisfied? -/
def waitsSync (s : State) (c k : Nat) (b : Bundle) : Bool :=
  match b.x with
  | some (.wait a i) => !countReached (s.core c k) i ((s.core c k).sreg a)
  | some (.barArrive i) => arrivedNow s c k i
  | some (.barWait i) => !generationDone s c k i
  | some (.barSync i) => !(s.core c k).barIn && arrivedNow s c k i
  | _ => false

/-- The counter of the first cause, in the order of R470, that holds the bundle back; a flag wait and a bar.sync that has
arrived are apart. -/
def stallCause (s : State) (c k : Nat) (b : Bundle) : Option Nat :=
  let x := s.core c k
  ([(waitsMatrix x b, 12), (b.m.isSome && 2 ≤ x.matrix.length, 13), (waitsTe s c b, 14), (waitsScope s c k b, 15),
    (waitsSync s c k b, 16), (b.m.any (tokenFull x), 19)].find? (·.1)).map (·.2)

/-- Is the bundle held back by anything but a flag wait or a bar.sync? -/
def stalls (s : State) (c k : Nat) (b : Bundle) : Bool := (stallCause s c k b).isSome

/-- Once nothing else holds it back: has the flag been met, or the generation completed? -/
def syncReady (s : State) (c k : Nat) (expired : Bool) (b : Bundle) : Bool :=
  let x := s.core c k
  match b.x with
  | some (.fwait a v _ _ cond pool) => expired || flagMet s c k pool (x.sreg a) (x.sreg v) cond
  | some (.barSync i) => generationDone s c k i
  | _ => true

/-! ### Issue -/

/-- Is a V-slot operation of class A16 (R193)? Loads and stores are of neither class counted. -/
def VOp.class16 : VOp → Bool
  | .div _ _ _ | .sqrt _ _ | .exp _ _ | .expd _ _ _ | .red _ _ _ | .tmax _ _ _ | .texp _ _ | .tsum _ _ => true
  | .int _ _ _ _ | .imin _ _ _ _ | .icmp _ _ _ _ | .sel _ _ _ _ | .fp _ _ _ _ _ | .fmin _ _ _ _ | .fcmp _ _ _ _
  | .fcvtI _ _ | .icvtF _ _ | .narrow _ _ _ _ | .widen _ _ _ | .tget _ _ _ | .tput _ _ _ | .ld _ _ _ _ | .ldbc _ _ _ _
  | .st _ _ _ _ | .mov _ _ | .ext _ _ _ => false

def VOp.isMem : VOp → Bool
  | .ld _ _ _ _ | .ldbc _ _ _ _ | .st _ _ _ _ => true
  | .int _ _ _ _ | .imin _ _ _ _ | .icmp _ _ _ _ | .sel _ _ _ _ | .fp _ _ _ _ _ | .fmin _ _ _ _ | .fcmp _ _ _ _
  | .fcvtI _ _ | .icvtF _ _ | .narrow _ _ _ _ | .widen _ _ _ | .tget _ _ _ | .tput _ _ _ | .mov _ _ | .ext _ _ _
  | .div _ _ _ | .sqrt _ _ | .exp _ _ | .expd _ _ _ | .red _ _ _ | .tmax _ _ _ | .texp _ _ | .tsum _ _ => false

/-- The bundle is held back in a cycle, which the counters of R469 and R470 note with its cause (assumption 4). -/
def hold (c k cause : Nat) (s : State) : State :=
  countCore c k 0 1 (countCore c k 5 4 (countCore c k cause 1 (s.modCore c k fun x => { x with run := .held })))

/-- The counters of an issued bundle (R468, R469). -/
def issueCounts (b : Bundle) : List (Nat × Nat) :=
  let r := [b2n (b.s != .nop), b2n b.v.isSome, b2n b.m.isSome, b2n b.x.isSome]
  let n := r.foldl (· + ·) 0
  [(0, 1), (2, n), (3, 4 - n), (6, r.getD 0 0), (7, r.getD 1 0), (8, r.getD 2 0), (9, r.getD 3 0), (10, 1)] ++
  (match b.v with
    | some w => if w.op.class16 then [(30, 1)] else if w.op.isMem then [] else [(29, 1)]
    | none => [])

/-- Stop with a slot the manual names, or with one it does not (assumption 48). -/
def stopAt (c k : Nat) (slot : Option Nat) (pc cause code : Nat) (s : State) : State :=
  match slot with
  | some n => stopCore c k (stopValue cause pc n code) .fault s
  | none => stopCore c k (stopValue cause pc (s.draw % 4) code) .fault s.drawn

/-- Where the core goes after the bundle: on, to a target, into a wait, or to its halt (R171, R180, R181, R189, R205). A
target issues 3 cycles after the branch at the earliest, and the two between are front-starved (R180, R469, assumption 4). -/
def control (c k : Nat) (s0 : State) (op : SOp) (s : State) : State :=
  let x := s0.core c k
  let s := s.modCore c k fun y => { y with run := .running, pc := x.pc + 1, barIn := false, issued := true }
  match branchTo x op with
  | some t =>
    let s := countCore c k 11 1 s
    if t < 0 || (imemBundles : Int) ≤ t then stopAt c k (some 0) x.pc causeIfetch 0 s
    else countCore c k 0 2 (countCore c k 4 8 (s.modCore c k fun y => { y with pc := t.toNat }))
  | none =>
    match op with
    | .wait =>
      if (s.core c k).wake then countCore c k 39 1 (s.modCore c k fun y => { y with wake := false })
      else settleWait c k (s.modCore c k fun y => { y with run := .waiting x.cmode })
    | .halt => stopCore c k (stopValue causeHalt x.pc 0 0) .halt s
    | _ => s

/-- The single-bit errors that the fetch of a bundle and its reads meet: corrected, written back and counted (R148). -/
def correctBundle (c k : Nat) (b : Bundle) (s : State) : State :=
  let x := s.core c k
  let s := if x.imemCe.contains x.pc then
      countCore c k 42 1 (s.modCore c k fun x => { x with imemCe := x.imemCe.filter (· != x.pc) })
    else s
  forEach (bundleReads x b) (fun r s =>
    if r.2.1 then
      countCore c k 44 (wordsIn (s.cluster c).poolCe r.2.2.1 r.2.2.2).length (s.modCluster c (Cluster.mend r.2.2.1 r.2.2.2))
    else
      countCore c k 43 (wordsIn (s.core c k).spmCe r.2.2.1 r.2.2.2).length (s.modCore c k (Core.mend r.2.2.1 r.2.2.2))) s

/-- Every operation of the bundle takes effect, each with its sources as they stood at issue (R143). -/
def issueBundle (c k : Nat) (b : Bundle) (s : State) : State :=
  let s0 := correctBundle c k b s
  let s := forEach (issueCounts b) (fun q => countCore c k q.1 q.2) s0
  let s := match b.x with
    | some op => xEffect c k s0 op s
    | none => s
  let s := match b.m with
    | some op => mEffect c k s0 op s
    | none => s
  let s := sEffect c k s0 b.s s
  let s := match b.v with
    | some w => vEffect c k s0 w s
    | none => s
  let s := control c k s0 b.s s
  if (s0.core c k).issued then s else settleCores s

/-- A bundle that passes its checks: a bar.sync arrives once nothing else holds the bundle back, and the bundle issues or
is held. -/
def tryIssue (c k : Nat) (expired : Bool) (b : Bundle) (s : State) : State :=
  match stallCause s c k b with
  | some cause => hold c k cause s
  | none =>
    let s := match b.x with
      | some (.barSync i) =>
        if (s.core c k).barIn then s else arrive c k i (s.modCore c k fun x => { x with barIn := true })
      | _ => s
    if syncReady s c k expired b then issueBundle c k b s else hold c k 16 s

/-! ### The bundle at PC (R178, R181, R186) -/

/-- What the core finds at its PC. -/
inductive Look where
  | stop (slot : Option Nat) (pc cause code : Nat)
  | bundle (b : Bundle)
  deriving DecidableEq, Repr

/-- The checks of R186 on the bundle at PC, and the errors its fetch and its reads meet; lost parity of a register or a tile
stops the core at its next bundle, whatever the bundle names (R148, assumption 77). -/
def look (s : State) (c k : Nat) : Look :=
  let x := s.core c k
  if imemBundles ≤ x.pc then .stop none (imemBundles - 1) causeIfetch 0
  else if x.regBad || x.imemBad.contains x.pc then .stop none x.pc causeParity 0
  else
    match decodeBundle (SMap.get 0 x.imem x.pc) with
    | .error slot => .stop (some slot) x.pc causeIllegalOp 0
    | .ok b =>
      if illegalBundle b then .stop none x.pc causeIllegalBundle 0
      else
        match bundleFault s c k b with
        | some (slot, f) => .stop (some slot) x.pc f.cause f.code
        | none =>
          match parityFault s c k b with
          | some slot => .stop (some slot) x.pc causeParity 0
          | none => .bundle b

/-- A bundle that fails does not issue, and the core stops; one that stops under R148 says so in ASTAT. -/
def takeStop (c k : Nat) (slot : Option Nat) (pc cause code : Nat) (s : State) : State :=
  stopAt c k slot pc cause code (if cause = causeParity then s.modCore c k fun x => { x with parStop := true, regBad := false }
    else s)

/-- The core issues the bundle at PC, if it holds an operation of the row; whatever row names the core, a bundle that fails
its checks stops it. -/
def coreRow (has : Bundle → Bool) (c k : Nat) (s : State) : Out :=
  if (s.core c k).run != .running then .next s
  else
    match look s c k with
    | .stop slot pc cause code => .next (takeStop c k slot pc cause code s)
    | .bundle b => if has b then .next (tryIssue c k false b s) else .next s

/-- A bundle held back is tried again. -/
def heldRow (has : State → Bundle → Bool) (expired : Bool) (c k : Nat) (s : State) : Out :=
  if (s.core c k).run != .held then .next s
  else
    match look s c k with
    | .stop slot pc cause code => .next (takeStop c k slot pc cause code s)
    | .bundle b => if has s b then .next (tryIssue c k expired b s) else .next s

end Sys2Proof.Machine
end

