-- ==== Sys2Proof/Machine/CoreM.lean ====
section
/-! DEFINITION. The M-slot operations as commands, and their completion (05, R156 to R168; 06, R195 to R197). Each names a core, which
issues the bundle at its PC if that holds an operation of the row; the effects of every slot are those of `issueBundle`. -/
namespace Sys2Proof.Machine

def hasMma (b : Bundle) : Bool :=
  match b.m with
  | some (.mma _ _ _ _ _ _ _) => true
  | _ => false

/-- MMA (R156, R157, R159, R160, R196). -/
def execMma (c : Fin 16) (k : Fin 8) (s : State) : Out := coreRow hasMma c k s

def hasMscale (b : Bundle) : Bool :=
  match b.m with
  | some (.mscale _ _) => true
  | _ => false

/-- MSCALE (R158). -/
def execMscale (c : Fin 16) (k : Fin 8) (s : State) : Out := coreRow hasMscale c k s

def hasMst (b : Bundle) : Bool :=
  match b.m with
  | some (.mst _ _ _ _ _) => true
  | _ => false

/-- MST (R158, R197). -/
def execMst (c : Fin 16) (k : Fin 8) (s : State) : Out := coreRow hasMst c k s

def hasWst (b : Bundle) : Bool :=
  match b.m with
  | some (.wst _ _ _) => true
  | _ => false

/-- WST (R161). -/
def execWst (c : Fin 16) (k : Fin 8) (s : State) : Out := coreRow hasWst c k s

def hasWld (b : Bundle) : Bool :=
  match b.m with
  | some (.wld _ _) => true
  | _ => false

/-- WLD (R161). -/
def execWld (c : Fin 16) (k : Fin 8) (s : State) : Out := coreRow hasWld c k s

def hasWcvt (b : Bundle) : Bool :=
  match b.m with
  | some (.wcvt _ _ _) => true
  | _ => false

/-- WCVT (R162). -/
def execWcvt (c : Fin 16) (k : Fin 8) (s : State) : Out := coreRow hasWcvt c k s

/-- MATRIX_OPERATION_COMPLETE (R168, R176). -/
def execMatrixOperationComplete (c : Fin 16) (k : Fin 8) (s : State) : Out := .next (matrixDone c k s)

end Sys2Proof.Machine
end

