-- ==== Sys2Proof/Machine/CoreS.lean ====
section
/-! DEFINITION. The S-slot operations as commands (06, R189 to R192, R205). Each names a core, which
issues the bundle at its PC if that holds an operation of the row; the effects of every slot are those of `issueBundle`. -/
namespace Sys2Proof.Machine

def hasIntAlu (b : Bundle) : Bool :=
  match b.s with
  | .alu _ _ _ _ => true
  | .nop => b.v.isNone && b.m.isNone && b.x.isNone
  | _ => false

/-- INT_ALU: add, sub, and, or, xor, the shifts, slt, sltu, min, max, minu and maxu; also a bundle of no-operations
only (R179, R189, assumption 49). -/
def execIntAlu (c : Fin 16) (k : Fin 8) (s : State) : Out := coreRow hasIntAlu c k s

def hasMul (b : Bundle) : Bool :=
  match b.s with
  | .mul .mul _ _ _ => true
  | _ => false

/-- MUL (R189). -/
def execMul (c : Fin 16) (k : Fin 8) (s : State) : Out := coreRow hasMul c k s

def hasMulhu (b : Bundle) : Bool :=
  match b.s with
  | .mul .mulhu _ _ _ => true
  | _ => false

/-- MULHU (R189). -/
def execMulhu (c : Fin 16) (k : Fin 8) (s : State) : Out := coreRow hasMulhu c k s

def hasMulh (b : Bundle) : Bool :=
  match b.s with
  | .mul .mulh _ _ _ => true
  | _ => false

/-- MULH (R189). -/
def execMulh (c : Fin 16) (k : Fin 8) (s : State) : Out := coreRow hasMulh c k s

def hasSel (b : Bundle) : Bool :=
  match b.s with
  | .sel _ _ _ _ => true
  | _ => false

/-- SEL (R189). -/
def execSel (c : Fin 16) (k : Fin 8) (s : State) : Out := coreRow hasSel c k s

def hasAluImmediate (b : Bundle) : Bool :=
  match b.s with
  | .alui _ _ _ _ => true
  | _ => false

/-- ALU_IMMEDIATE (R189). -/
def execAluImmediate (c : Fin 16) (k : Fin 8) (s : State) : Out := coreRow hasAluImmediate c k s

def hasMov16 (b : Bundle) : Bool :=
  match b.s with
  | .mov16 false _ _ _ => true
  | _ => false

/-- MOV16 (R189). -/
def execMov16 (c : Fin 16) (k : Fin 8) (s : State) : Out := coreRow hasMov16 c k s

def hasMov16Z (b : Bundle) : Bool :=
  match b.s with
  | .mov16 true _ _ _ => true
  | _ => false

/-- MOV16_Z (R189). -/
def execMov16Z (c : Fin 16) (k : Fin 8) (s : State) : Out := coreRow hasMov16Z c k s

def hasLdSpm (b : Bundle) : Bool :=
  match b.s with
  | .ld false _ _ _ _ _ => true
  | _ => false

/-- LD_SPM (R190). -/
def execLdSpm (c : Fin 16) (k : Fin 8) (s : State) : Out := coreRow hasLdSpm c k s

def hasLdPool (b : Bundle) : Bool :=
  match b.s with
  | .ld true _ _ _ _ _ => true
  | _ => false

/-- LD_POOL (R190). -/
def execLdPool (c : Fin 16) (k : Fin 8) (s : State) : Out := coreRow hasLdPool c k s

def hasStSpm (b : Bundle) : Bool :=
  match b.s with
  | .st false _ _ _ _ => true
  | _ => false

/-- ST_SPM (R190). -/
def execStSpm (c : Fin 16) (k : Fin 8) (s : State) : Out := coreRow hasStSpm c k s

def hasStPool (b : Bundle) : Bool :=
  match b.s with
  | .st true _ _ _ _ => true
  | _ => false

/-- ST_POOL (R190). -/
def execStPool (c : Fin 16) (k : Fin 8) (s : State) : Out := coreRow hasStPool c k s

def hasFpArith (b : Bundle) : Bool :=
  match b.s with
  | .fp _ _ _ _ _ => true
  | _ => false

/-- FP_ARITH (R152, R189). -/
def execFpArith (c : Fin 16) (k : Fin 8) (s : State) : Out := coreRow hasFpArith c k s

def hasFpCompare (b : Bundle) : Bool :=
  match b.s with
  | .fcmp _ _ _ _ => true
  | _ => false

/-- FP_COMPARE (R189). -/
def execFpCompare (c : Fin 16) (k : Fin 8) (s : State) : Out := coreRow hasFpCompare c k s

def hasFcvtF32I64 (b : Bundle) : Bool :=
  match b.s with
  | .fcvtI _ _ => true
  | _ => false

/-- FCVT_F32_I64 (R189). -/
def execFcvtF32I64 (c : Fin 16) (k : Fin 8) (s : State) : Out := coreRow hasFcvtF32I64 c k s

def hasFcvtI64F32 (b : Bundle) : Bool :=
  match b.s with
  | .icvtF _ _ => true
  | _ => false

/-- FCVT_I64_F32 (R153, R189). -/
def execFcvtI64F32 (c : Fin 16) (k : Fin 8) (s : State) : Out := coreRow hasFcvtI64F32 c k s

def hasPset (b : Bundle) : Bool :=
  match b.s with
  | .pset _ _ => true
  | _ => false

/-- PSET (R189). -/
def execPset (c : Fin 16) (k : Fin 8) (s : State) : Out := coreRow hasPset c k s

def hasPget (b : Bundle) : Bool :=
  match b.s with
  | .pget _ _ => true
  | _ => false

/-- PGET (R189). -/
def execPget (c : Fin 16) (k : Fin 8) (s : State) : Out := coreRow hasPget c k s

def hasPredLogic (b : Bundle) : Bool :=
  match b.s with
  | .plog _ _ _ _ => true
  | _ => false

/-- PRED_LOGIC (R189). -/
def execPredLogic (c : Fin 16) (k : Fin 8) (s : State) : Out := coreRow hasPredLogic c k s

def hasPcnt (b : Bundle) : Bool :=
  match b.s with
  | .pcnt _ _ => true
  | _ => false

/-- PCNT (R189). -/
def execPcnt (c : Fin 16) (k : Fin 8) (s : State) : Out := coreRow hasPcnt c k s

def hasBranch (b : Bundle) : Bool :=
  match b.s with
  | .br _ _ _ _ => true
  | _ => false

/-- BRANCH (R180, R181, R189). -/
def execBranch (c : Fin 16) (k : Fin 8) (s : State) : Out := coreRow hasBranch c k s

def hasBpany (b : Bundle) : Bool :=
  match b.s with
  | .bp false _ _ => true
  | _ => false

/-- BPANY (R189). -/
def execBpany (c : Fin 16) (k : Fin 8) (s : State) : Out := coreRow hasBpany c k s

def hasBpnone (b : Bundle) : Bool :=
  match b.s with
  | .bp true _ _ => true
  | _ => false

/-- BPNONE (R189). -/
def execBpnone (c : Fin 16) (k : Fin 8) (s : State) : Out := coreRow hasBpnone c k s

def hasJ (b : Bundle) : Bool :=
  match b.s with
  | .j _ => true
  | _ => false

/-- J (R189). -/
def execJ (c : Fin 16) (k : Fin 8) (s : State) : Out := coreRow hasJ c k s

def hasJal (b : Bundle) : Bool :=
  match b.s with
  | .jal _ _ => true
  | _ => false

/-- JAL (R189). -/
def execJal (c : Fin 16) (k : Fin 8) (s : State) : Out := coreRow hasJal c k s

def hasJr (b : Bundle) : Bool :=
  match b.s with
  | .jr _ => true
  | _ => false

/-- JR (R181, R189). -/
def execJr (c : Fin 16) (k : Fin 8) (s : State) : Out := coreRow hasJr c k s

def hasTrap (b : Bundle) : Bool :=
  match b.s with
  | .trap _ => true
  | _ => false

/-- TRAP: the core stops with the code of the bundle (R186, R187). -/
def execTrap (c : Fin 16) (k : Fin 8) (s : State) : Out := coreRow hasTrap c k s

def hasCsRd (b : Bundle) : Bool :=
  match b.s with
  | .csRd _ _ => true
  | _ => false

/-- CS_RD (R192). -/
def execCsRd (c : Fin 16) (k : Fin 8) (s : State) : Out := coreRow hasCsRd c k s

def hasCsWr (b : Bundle) : Bool :=
  match b.s with
  | .csWr _ _ => true
  | _ => false

/-- CS_WR (R192). -/
def execCsWr (c : Fin 16) (k : Fin 8) (s : State) : Out := coreRow hasCsWr c k s

def hasWait (b : Bundle) : Bool :=
  match b.s with
  | .wait => true
  | _ => false

/-- WAIT (R171, R205). -/
def execWait (c : Fin 16) (k : Fin 8) (s : State) : Out := coreRow hasWait c k s

def hasHalt (b : Bundle) : Bool :=
  match b.s with
  | .halt => true
  | _ => false

/-- HALT (R189, R371). -/
def execHalt (c : Fin 16) (k : Fin 8) (s : State) : Out := coreRow hasHalt c k s

/-- STALLED_BUNDLE_ISSUE: a bundle held back issues, if its condition has cleared (R144, R145, R170). -/
def execStalledBundleIssue (c : Fin 16) (k : Fin 8) (s : State) : Out := heldRow (fun _ _ => true) false c k s

end Sys2Proof.Machine
end

