-- ==== Sys2Proof/Machine/CoreV.lean ====
section
/-! DEFINITION. The V-slot operations as commands (05, R164 to R166; 06, R193, R194). Each names a core, which
issues the bundle at its PC if that holds an operation of the row; the effects of every slot are those of `issueBundle`. -/
namespace Sys2Proof.Machine

def hasVintAlu (b : Bundle) : Bool :=
  match b.v with
  | some { op := .int _ _ _ _, pred := _ } => true
  | _ => false

/-- VINT_ALU (R193). -/
def execVintAlu (c : Fin 16) (k : Fin 8) (s : State) : Out := coreRow hasVintAlu c k s

def hasVintMinmax (b : Bundle) : Bool :=
  match b.v with
  | some { op := .imin _ _ _ _, pred := _ } => true
  | _ => false

/-- VINT_MINMAX (R193). -/
def execVintMinmax (c : Fin 16) (k : Fin 8) (s : State) : Out := coreRow hasVintMinmax c k s

def hasVcmpInt (b : Bundle) : Bool :=
  match b.v with
  | some { op := .icmp _ _ _ _, pred := _ } => true
  | _ => false

/-- VCMP_INT (R193). -/
def execVcmpInt (c : Fin 16) (k : Fin 8) (s : State) : Out := coreRow hasVcmpInt c k s

def hasVsel (b : Bundle) : Bool :=
  match b.v with
  | some { op := .sel _ _ _ _, pred := _ } => true
  | _ => false

/-- VSEL (R193). -/
def execVsel (c : Fin 16) (k : Fin 8) (s : State) : Out := coreRow hasVsel c k s

def hasVfpArith (b : Bundle) : Bool :=
  match b.v with
  | some { op := .fp _ _ _ _ _, pred := _ } => true
  | _ => false

/-- VFP_ARITH (R152, R193). -/
def execVfpArith (c : Fin 16) (k : Fin 8) (s : State) : Out := coreRow hasVfpArith c k s

def hasVminmaxF32 (b : Bundle) : Bool :=
  match b.v with
  | some { op := .fmin _ _ _ _, pred := _ } => true
  | _ => false

/-- VMINMAX_F32 (R193). -/
def execVminmaxF32 (c : Fin 16) (k : Fin 8) (s : State) : Out := coreRow hasVminmaxF32 c k s

def hasVcmpF32 (b : Bundle) : Bool :=
  match b.v with
  | some { op := .fcmp _ _ _ _, pred := _ } => true
  | _ => false

/-- VCMP_F32 (R193). -/
def execVcmpF32 (c : Fin 16) (k : Fin 8) (s : State) : Out := coreRow hasVcmpF32 c k s

def hasVdivVsqrt (b : Bundle) : Bool :=
  match b.v with
  | some { op := .div _ _ _, pred := _ } => true
  | some { op := .sqrt _ _, pred := _ } => true
  | _ => false

/-- VDIV_VSQRT (R164). -/
def execVdivVsqrt (c : Fin 16) (k : Fin 8) (s : State) : Out := coreRow hasVdivVsqrt c k s

def hasVexp (b : Bundle) : Bool :=
  match b.v with
  | some { op := .exp _ _, pred := _ } => true
  | _ => false

/-- VEXP (R164). -/
def execVexp (c : Fin 16) (k : Fin 8) (s : State) : Out := coreRow hasVexp c k s

def hasVexpd (b : Bundle) : Bool :=
  match b.v with
  | some { op := .expd _ _ _, pred := _ } => true
  | _ => false

/-- VEXPD (R164). -/
def execVexpd (c : Fin 16) (k : Fin 8) (s : State) : Out := coreRow hasVexpd c k s

def hasVcvtInt (b : Bundle) : Bool :=
  match b.v with
  | some { op := .fcvtI _ _, pred := _ } => true
  | some { op := .icvtF _ _, pred := _ } => true
  | _ => false

/-- VCVT_INT (R153, R193). -/
def execVcvtInt (c : Fin 16) (k : Fin 8) (s : State) : Out := coreRow hasVcvtInt c k s

def hasVcvtBf16 (b : Bundle) : Bool :=
  match b.v with
  | some { op := .narrow false _ _ _, pred := _ } => true
  | _ => false

/-- VCVT_BF16 (R153, R193). -/
def execVcvtBf16 (c : Fin 16) (k : Fin 8) (s : State) : Out := coreRow hasVcvtBf16 c k s

def hasVcvtF16 (b : Bundle) : Bool :=
  match b.v with
  | some { op := .narrow true _ _ _, pred := _ } => true
  | _ => false

/-- VCVT_F16 (R153, R193). -/
def execVcvtF16 (c : Fin 16) (k : Fin 8) (s : State) : Out := coreRow hasVcvtF16 c k s

def hasVcvtWiden (b : Bundle) : Bool :=
  match b.v with
  | some { op := .widen _ _ _, pred := _ } => true
  | _ => false

/-- VCVT_WIDEN (R193). -/
def execVcvtWiden (c : Fin 16) (k : Fin 8) (s : State) : Out := coreRow hasVcvtWiden c k s

def hasVred (b : Bundle) : Bool :=
  match b.v with
  | some { op := .red _ _ _, pred := _ } => true
  | _ => false

/-- VRED (R165, R184). -/
def execVred (c : Fin 16) (k : Fin 8) (s : State) : Out := coreRow hasVred c k s

def hasVtmax (b : Bundle) : Bool :=
  match b.v with
  | some { op := .tmax _ _ _, pred := _ } => true
  | _ => false

/-- VTMAX (R166, R185). -/
def execVtmax (c : Fin 16) (k : Fin 8) (s : State) : Out := coreRow hasVtmax c k s

def hasVtexp (b : Bundle) : Bool :=
  match b.v with
  | some { op := .texp _ _, pred := _ } => true
  | _ => false

/-- VTEXP (R166, R185). -/
def execVtexp (c : Fin 16) (k : Fin 8) (s : State) : Out := coreRow hasVtexp c k s

def hasVtsum (b : Bundle) : Bool :=
  match b.v with
  | some { op := .tsum _ _, pred := _ } => true
  | _ => false

/-- VTSUM (R166, R185). -/
def execVtsum (c : Fin 16) (k : Fin 8) (s : State) : Out := coreRow hasVtsum c k s

def hasVtget (b : Bundle) : Bool :=
  match b.v with
  | some { op := .tget _ _ _, pred := _ } => true
  | _ => false

/-- VTGET (R194). -/
def execVtget (c : Fin 16) (k : Fin 8) (s : State) : Out := coreRow hasVtget c k s

def hasVtput (b : Bundle) : Bool :=
  match b.v with
  | some { op := .tput _ _ _, pred := _ } => true
  | _ => false

/-- VTPUT (R194). -/
def execVtput (c : Fin 16) (k : Fin 8) (s : State) : Out := coreRow hasVtput c k s

def hasVld (b : Bundle) : Bool :=
  match b.v with
  | some { op := .ld _ _ _ _, pred := _ } => true
  | _ => false

/-- VLD (R194). -/
def execVld (c : Fin 16) (k : Fin 8) (s : State) : Out := coreRow hasVld c k s

def hasVldBc (b : Bundle) : Bool :=
  match b.v with
  | some { op := .ldbc _ _ _ _, pred := _ } => true
  | _ => false

/-- VLD_BC (R194). -/
def execVldBc (c : Fin 16) (k : Fin 8) (s : State) : Out := coreRow hasVldBc c k s

def hasVst (b : Bundle) : Bool :=
  match b.v with
  | some { op := .st _ _ _ _, pred := _ } => true
  | _ => false

/-- VST (R184, R194). -/
def execVst (c : Fin 16) (k : Fin 8) (s : State) : Out := coreRow hasVst c k s

def hasVmovS (b : Bundle) : Bool :=
  match b.v with
  | some { op := .mov _ _, pred := _ } => true
  | _ => false

/-- VMOV_S (R193). -/
def execVmovS (c : Fin 16) (k : Fin 8) (s : State) : Out := coreRow hasVmovS c k s

def hasVext (b : Bundle) : Bool :=
  match b.v with
  | some { op := .ext _ _ _, pred := _ } => true
  | _ => false

/-- VEXT (R193). -/
def execVext (c : Fin 16) (k : Fin 8) (s : State) : Out := coreRow hasVext c k s

end Sys2Proof.Machine
end

