-- ==== Sys2Proof/Machine/CoreX.lean ====
section
/-! DEFINITION. The X-slot operations as commands (04, R127, R128; 06, R198 to R204). Each names a core, which
issues the bundle at its PC if that holds an operation of the row; the effects of every slot are those of `issueBundle`. -/
namespace Sys2Proof.Machine

def hasTeIssue (b : Bundle) : Bool :=
  match b.x with
  | some (.issue _ _ _) => true
  | _ => false

/-- TE_ISSUE (R198, R199). -/
def execTeIssue (c : Fin 16) (k : Fin 8) (s : State) : Out := coreRow hasTeIssue c k s

def hasTeArm (b : Bundle) : Bool :=
  match b.x with
  | some (.arm _ _ _ _) => true
  | _ => false

/-- TE_ARM (R169, R200). -/
def execTeArm (c : Fin 16) (k : Fin 8) (s : State) : Out := coreRow hasTeArm c k s

def hasTeCnt (b : Bundle) : Bool :=
  match b.x with
  | some (.cnt _ _) => true
  | _ => false

/-- TE_CNT (R199). -/
def execTeCnt (c : Fin 16) (k : Fin 8) (s : State) : Out := coreRow hasTeCnt c k s

def hasTeErr (b : Bundle) : Bool :=
  match b.x with
  | some (.err _ _) => true
  | _ => false

/-- TE_ERR (R199). -/
def execTeErr (c : Fin 16) (k : Fin 8) (s : State) : Out := coreRow hasTeErr c k s

def hasTeWait (b : Bundle) : Bool :=
  match b.x with
  | some (.wait _ _) => true
  | _ => false

/-- TE_WAIT (R199). -/
def execTeWait (c : Fin 16) (k : Fin 8) (s : State) : Out := coreRow hasTeWait c k s

def hasTeXissue (b : Bundle) : Bool :=
  match b.x with
  | some (.xissue _ _ _ _) => true
  | _ => false

/-- TE_XISSUE (R198). -/
def execTeXissue (c : Fin 16) (k : Fin 8) (s : State) : Out := coreRow hasTeXissue c k s

def hasRel (b : Bundle) : Bool :=
  match b.x with
  | some (.rel _) => true
  | _ => false

/-- REL (R127). -/
def execRel (c : Fin 16) (k : Fin 8) (s : State) : Out := coreRow hasRel c k s

def hasAcq (b : Bundle) : Bool :=
  match b.x with
  | some (.acq _) => true
  | _ => false

/-- ACQ (R128, R132). -/
def execAcq (c : Fin 16) (k : Fin 8) (s : State) : Out := coreRow hasAcq c k s

def hasBarCfg (b : Bundle) : Bool :=
  match b.x with
  | some (.barCfg _ _) => true
  | _ => false

/-- BAR_CFG (R202). -/
def execBarCfg (c : Fin 16) (k : Fin 8) (s : State) : Out := coreRow hasBarCfg c k s

def hasBarArrive (b : Bundle) : Bool :=
  match b.x with
  | some (.barArrive _) => true
  | _ => false

/-- BAR_ARRIVE (R202). -/
def execBarArrive (c : Fin 16) (k : Fin 8) (s : State) : Out := coreRow hasBarArrive c k s

def hasBarWait (b : Bundle) : Bool :=
  match b.x with
  | some (.barWait _) => true
  | _ => false

/-- BAR_WAIT (R202). -/
def execBarWait (c : Fin 16) (k : Fin 8) (s : State) : Out := coreRow hasBarWait c k s

def hasBarSync (b : Bundle) : Bool :=
  match b.x with
  | some (.barSync _) => true
  | _ => false

/-- BAR_SYNC (R202). -/
def execBarSync (c : Fin 16) (k : Fin 8) (s : State) : Out := coreRow hasBarSync c k s

def hasFwait (b : Bundle) : Bool :=
  match b.x with
  | some (.fwait _ _ _ _ _ _) => true
  | _ => false

/-- FWAIT (R203). -/
def execFwait (c : Fin 16) (k : Fin 8) (s : State) : Out := coreRow hasFwait c k s

def hasWakeCore (b : Bundle) : Bool :=
  match b.x with
  | some (.wake _) => true
  | _ => false

/-- WAKE_CORE (R172, R206). -/
def execWakeCore (c : Fin 16) (k : Fin 8) (s : State) : Out := coreRow hasWakeCore c k s

def hasWatch (b : Bundle) : Bool :=
  match b.x with
  | some (.watch _) => true
  | _ => false

/-- WATCH (R204). -/
def execWatch (c : Fin 16) (k : Fin 8) (s : State) : Out := coreRow hasWatch c k s

/-- Is the bundle a flag wait whose condition holds? -/
def fwaitMet (c k : Nat) (s : State) (b : Bundle) : Bool :=
  match b.x with
  | some (.fwait a v _ _ cond pool) => flagMet s c k pool ((s.core c k).sreg a) ((s.core c k).sreg v) cond
  | _ => false

/-- Is the bundle a flag wait with a limit? -/
def fwaitLimited (c k : Nat) (s : State) (b : Bundle) : Bool :=
  match b.x with
  | some (.fwait _ _ l _ _ _) => (s.core c k).sreg l != 0
  | _ => false

/-- FWAIT_CONDITION_MET: the bundle issues with pD all ones (R203). -/
def execFwaitConditionMet (c : Fin 16) (k : Fin 8) (s : State) : Out := heldRow (fwaitMet c k) false c k s

/-- FWAIT_LIMIT_EXPIRY: the bundle issues with pD zero, unless the condition holds now (R203, R206). -/
def execFwaitLimitExpiry (c : Fin 16) (k : Fin 8) (s : State) : Out := heldRow (fwaitLimited c k) true c k s

end Sys2Proof.Machine
end

