-- ==== Sys2Proof/Machine/EpbCmds.lean ====
section
/-! DEFINITION. The commands of the end-point blocks: requests, responses, Accord and the timers of the fabric (03, 04,
08, 09). -/
namespace Sys2Proof.Machine

/-! ### Requests, as the next packet of the endpoint -/

/-- LOAD (R88). -/
def execLoad (e : Fin 16) (s : State) : Out := .next (popRx e opLoad (serveRequest e) s)

/-- STORE (R90, R121). -/
def execStore (e : Fin 16) (s : State) : Out := .next (popRx e opStore (serveRequest e) s)

/-- FETCH_OP (R92). -/
def execFetchOp (e : Fin 16) (s : State) : Out := .next (popRx e opFetch (serveRequest e) s)

/-- CSWAP (R92). -/
def execCswap (e : Fin 16) (s : State) : Out := .next (popRx e opCswap (serveRequest e) s)

/-- REDUCE (R94). -/
def execReduce (e : Fin 16) (s : State) : Out := .next (popRx e opReduce (serveRequest e) s)

/-- WREDUCE (R94). -/
def execWreduce (e : Fin 16) (s : State) : Out := .next (popRx e opWreduce (serveRequest e) s)

/-- OREDUCE (R96 to R99). -/
def execOreduce (e : Fin 16) (s : State) : Out := .next (popRx e opOreduce (serveRequest e) s)

/-- LSE (R96 to R101). -/
def execLse (e : Fin 16) (s : State) : Out := .next (popRx e opLse (serveRequest e) s)

/-- STREAM_CARRY_REQUEST: a carry is served as a flagged packet that writes nothing (R91, R121). -/
def execStreamCarryRequest (e : Fin 16) (s : State) : Out := .next (popRx e opCarry (serveRequest e) s)

/-- MCAST_STORE: replicated at Prism, or served at a member as a store (R102, R290). -/
def execMcastStore (a1 : McastSite) (s : State) : Out :=
  match a1 with
  | .prism i => .next (arriveIf (fun p => p.hdr.op.toNat == opMcast) i s)
  | .endpoint e => .next (popRx e opMcast (serveRequest e) s)

/-! ### Responses, as the next packet of the endpoint -/

/-- LOAD_RESP (R88, R89). -/
def execLoadResp (e : Fin 16) (s : State) : Out := .next (popRx e (opLoad + 0x80) (takeResponse e) s)

/-- STORE_ACK (R90, R118). -/
def execStoreAck (e : Fin 16) (s : State) : Out := .next (popRx e (opStore + 0x80) (takeResponse e) s)

/-- FETCH_RESP (R92). -/
def execFetchResp (e : Fin 16) (s : State) : Out := .next (popRx e (opFetch + 0x80) (takeResponse e) s)

/-- CSWAP_RESP (R92). -/
def execCswapResp (e : Fin 16) (s : State) : Out := .next (popRx e (opCswap + 0x80) (takeResponse e) s)

/-- REDUCE_ACK (R94). -/
def execReduceAck (e : Fin 16) (s : State) : Out := .next (popRx e (opReduce + 0x80) (takeResponse e) s)

/-- WREDUCE_ACK (R94). -/
def execWreduceAck (e : Fin 16) (s : State) : Out := .next (popRx e (opWreduce + 0x80) (takeResponse e) s)

/-- OREDUCE_ACK (R99). -/
def execOreduceAck (e : Fin 16) (s : State) : Out := .next (popRx e (opOreduce + 0x80) (takeResponse e) s)

/-- LSE_ACK (R99). -/
def execLseAck (e : Fin 16) (s : State) : Out := .next (popRx e (opLse + 0x80) (takeResponse e) s)

/-- MCAST_ACK: gathered at the switch, or the one answer at the source (R103, R291). -/
def execMcastAck (a1 : McastSite) (s : State) : Out :=
  match a1 with
  | .prism i => .next (arriveIf (fun p => p.hdr.op.toNat == opMcast + 0x80) i s)
  | .endpoint e => .next (popRx e (opMcast + 0x80) (takeResponse e) s)

/-- CARRY_ACK: the gate of the stream reopens (R91, R118). -/
def execCarryAck (e : Fin 16) (s : State) : Out := .next (popRx e (opCarry + 0x80) (takeResponse e) s)

/-! ### Accord -/

/-- ACCORD_ROOT_WRITTEN: a formed root is written, and its notification entry (R98, R230). -/
def execAccordRootWritten (e : Fin 16) (w : Fin 4096) (pos : BitVec 40) (step : BitVec 16) (s : State) : Out :=
  match (s.epb e).sessions.find? fun x => x.root.isSome && x.named w pos.toNat step.toNat with
  | none => .next s
  | some x => .next (writeRoot e x (x.root.getD []) s)

/-- ACCORD_TIMEOUT: an open session is abandoned (R100). -/
def execAccordTimeout (e : Fin 16) (w : Fin 4096) (pos : BitVec 40) (step : BitVec 16) (s : State) : Out :=
  match (s.epb e).sessions.find? fun x => x.root.isNone && x.named w pos.toNat step.toNat with
  | none => .next s
  | some x => .next (abandon e x stOk s)

/-! ### Timers -/

/-- FLAG_HOLD_TIMEOUT: the held packet is answered STREAM_BROKEN and its stream breaks (R122), unless its last predecessor
has landed (R140). -/
def execFlagHoldTimeout (e : Fin 16) (snode : BitVec 12) (stag : BitVec 6) (s : State) : Out :=
  match (s.epb e).streams.find? fun r => r.snode == snode.toNat && r.stag == stag.toNat with
  | none => .next s
  | some r =>
    match r.held with
    | none => .next s
    | some x =>
      if r.due then .next s else
      let h := x.pkt.hdr
      let w := if isCarry h then 0 else h.window
      let x' := if isCarry h then 0 else windowPort s e w
      let s := answer e h stStreamBroken s
      let s := putRec e { r with held := none, broken := true } s
      let s := s.modEpb e fun b => { b with brokenTimeouts := cnt16 b.brokenTimeouts }
      .next (faultRecord x' (mkRecord s 0x03 stStreamBroken 2 0 e []
        (leBytes 2 r.snode ++ leBytes 1 r.stag ++ zeros 1 ++ leBytes 2 w ++ zeros 2 ++ leBytes 2 h.cnt.toNat ++ zeros 2
         ++ leBytes 4 r.landed)) s)

/-- The first queued write whose granules are free of writes in progress and of earlier queued ones (R137). -/
def readyCollided (now : Nat) (busy : List BusyGranule) : List (Bool × Nat) → List Collided → Option Collided
  | _, [] => none
  | ahead, c :: cs =>
    let l := granulesOf c.segs
    if busy.any (fun g => 3 * now < g.until3 && l.contains (g.pool, g.granule)) || ahead.any l.contains then
      readyCollided now busy (ahead ++ l) cs
    else some c

/-- COLLISION_QUEUE_DEQUEUE: a queued write is applied when the write before it ends (R135 to R137); one of a stream that
needs a record and finds the table full is answered HOLD_FULL (R121, R141). -/
def execCollisionQueueDequeue (e : Fin 16) (s : State) : Out :=
  let b := s.epb e
  match readyCollided s.now b.busy [] b.collide with
  | none => .next s
  | some c =>
    let s := unstall e (s.modEpb e fun b => { b with collide := b.collide.erase c })
    let h := c.pkt.hdr
    let s := if inStream h.op.toNat && tableFull s e h then holdFull e h s
      else workStage e (LensDesc.at_w s e h.window) c.pkt c.segs s
    .next (releaseDue e s)

/-- PAGE_WAIT_EXPIRY: the request that has waited longest is discarded and counted (R265). -/
def execPageWaitExpiry (e : Fin 16) (s : State) : Out :=
  match (s.epb e).pageWait with
  | [] => .next s
  | _ :: rest =>
    .next ((s.modEpb e fun b => { b with pageWait := rest }).modSill fun l => { l with waitExpired := cnt16 l.waitExpired })

end Sys2Proof.Machine
end

