-- ==== Sys2Proof/Machine/HostCmds.lean ====
section
/-! DEFINITION. Commands of the host links, doorbells, roles and the memory aperture (13). -/
namespace Sys2Proof.Machine

/-- TAIL_DOORBELL: a host write to page `r` of BAR2, at the tail's offset or any other (R356, R357). -/
def execTailDoorbell (x : Fin 2) (r : Fin 256) (off : BitVec 12) (data : List Byte) (s : State) : Out :=
  if hostCan s x then .next (bar2Write x r off.toNat data s) else .next s

/-- HEAD_DOORBELL (R356, R358). -/
def execHeadDoorbell (x : Fin 2) (r : RingRef) (v : BitVec 32) (s : State) : Out :=
  if !hostCan s x then .next s
  else .next (headDoorbell x r v.toNat s)

/-- COALESCE_TIMER: TIMER µs after the first unsignalled entry the vector is signalled (R377). -/
def execCoalesceTimer (x : Fin 2) (r : Fin 256) (s : State) : Out :=
  let q := (s.host x).cqAt r
  if q.en && q.irqEn && q.timer != 0 && q.unsig != 0 && (s.host x).linkUp then .next (cqSignal x r s) else .next s

/-- MSI_X_UNMASK: the vector's mask is cleared, and a pending message is sent (R377). -/
def execMsiXUnmask (x : Fin 2) (vector : Fin 2048) (s : State) : Out :=
  if !hostCan s x then .next s
  else
    let m := SMap.get Msix.reset (s.host x).msix vector
    .next (msixEntryWrite x vector ({ m with masked := false }).bytes s)

/-- AUTO_TAKEOVER: the main port's link has been down, or its PERST_N held, for HOLD ms of the standby port (R379). -/
def execAutoTakeover (s : State) : Out :=
  let main := s.mainPort
  let x := 1 - main
  if (s.host x).auto && (!(s.host main).linkUp || (s.host main).perst) then .next (takeRole x true s) else .next s

/-- HOST_LINK_DOWN (R380). -/
def execHostLinkDown (x : Fin 2) (s : State) : Out :=
  if !(s.host x).linkUp then .next s
  else .next (losePort x reasonLink (s.modHost x fun h => { h with linkUp := false, rate := 0, width := 0 }))

/-- HOST_LINK_UP: the link trains at a rate and width, and held records are written (R354, R373). -/
def execHostLinkUp (x : Fin 2) (rate : Fin 4) (width : Fin 3) (s : State) : Out :=
  if (s.host x).linkUp || (s.host x).perst || !s.boot.out || s.boot.thermtrip then .next s
  else
    let s := s.modHost x fun h => { h with linkUp := true, rate := max 1 rate.val, width := width.val }
    .next (flushHeld x s)

/-- PERST_N: low, the port is reset and its link goes down; high, it may come back (R380, R447). -/
def execPerstN (x : Fin 2) (low : Bool) (s : State) : Out :=
  if low then
    if (s.host x).perst then .next s
    else
      let s := s.modHost x fun h => { h with perst := true, ready := false, linkUp := false, rate := 0, width := 0 }
      .next (resetPort x reasonPerst s)
  else .next (s.modHost x fun h => { h with perst := false })

/-- FUNCTION_LEVEL_RESET: as PERST_N, with the link kept (R380). -/
def execFunctionLevelReset (x : Fin 2) (s : State) : Out :=
  if hostCan s x then .next (resetPort x reasonFlr s) else .next s

/-- MEMORY_APERTURE_READ: BAR4 reads device memory, or completes Unsupported Request, which AER logs; so does a read that
meets an uncorrectable error (R381, R406, R435, assumption 38). -/
def execMemoryApertureRead (x : Fin 2) (off : BitVec 36) (len : Nat) (s : State) : Out :=
  if !hostCan s x then .next s
  else
    let o := off.toNat
    let n := min len (2 ^ 36 - o)
    let a := apertureDpa s x o
    let ur := fun (s : State) => (logAer x false o s).emit (.apertureUr x o)
    if !apertureOpen s x || (pieces a n).any (fun p => !backed s p.1) then .next (ur s)
    else if devBad s false a n then .next (ur (ueNotes false (pieces a n) s))
    else .next ((countGranules 0 a n (correctRead a n s)).emit (.apertureData x o (devRead s a n)))

/-- MEMORY_APERTURE_WRITE: BAR4 writes device memory, or the write is discarded and logged under AER (R381, R406, R435). -/
def execMemoryApertureWrite (x : Fin 2) (off : BitVec 36) (data : List Byte) (s : State) : Out :=
  if !hostCan s x then .next s
  else
    let o := off.toNat
    let bs := data.take (2 ^ 36 - o)
    let a := apertureDpa s x o
    let n := bs.length
    if !apertureOpen s x || (pieces a n).any (fun p => !backed s p.1) then .next (logAer x true o s)
    else if devBad s true a n then .next (ueNotes true (pieces a n) s)
    else .next (countGranules 1 a n (devWrite a bs s))

/-- HOST_PORT_READY: the port answers configuration requests and its aperture is reachable (R447); `cfg` is what the host's
configuration writes then leave, and the row comes again when they change it (assumption 68). -/
def execHostPortReady (x : Fin 2) (cfg : PciCfg) (s : State) : Out :=
  if !s.boot.out || s.boot.thermtrip || (s.host x).perst then .next s
  else .next (pciWrite x cfg (s.modHost x fun h => { h with ready := true }))

end Sys2Proof.Machine
end

