-- ==== Sys2Proof/Machine/LinkCmds.lean ====
section
/-! DEFINITION. The commands of lanes and links (12). -/
namespace Sys2Proof.Machine

/-- TRAINING_FRAME: a lane receives a training frame and acts on it (R333, R334). -/
def execTrainingFrame (n : Fin 88) (k : Fin 4) (w : BitVec 128) (wish : RxWish) (s : State) : Out :=
  .next (trainFrame n k w wish s)

/-- TAP_HANDSHAKE_TIMEOUT: a request not answered within 10 µs counts as refused (R334). -/
def execTapHandshakeTimeout (n : Fin 88) (k : Fin 4) (s : State) : Out :=
  let l := (s.port n).lane k
  if l.ts == .tap && !(asking l).isEmpty then .next (sendTrain n k (s.modPort n (Port.modLane k Lane.answered)))
  else .next s

/-- TRAINING_DEADLINE: lanes that have not finished TAP are failed (R335). -/
def execTrainingDeadline (n : Fin 88) (s : State) : Out := .next (trainingDeadline n s)

/-- ID_FRAME: the peer's position, offset, partition and reserves; then UP, or a wiring mismatch (R24, R336). -/
def execIdFrame (n : Fin 88) (f : IdFrame) (s : State) : Out :=
  if (s.port n).state != .link then .next s
  else
    .next (linkCheck n (recomputeFence n (s.modPort n fun p =>
      { p with peerPos := f.position % 256, peerOff := f.portOff % 4, peerPart := f.part.map (· % 64),
               peerGmin := some f.gmin })))

/-- FENCE_ADVERTISEMENT: what the peer now reports decides the fence anew (R294). -/
def execFenceAdvertisement (n : Fin 88) (part : Option (Fin 64)) (s : State) : Out :=
  if (s.port n).state == .up || (s.port n).state == .link then
    .next (linkPoll (recomputeFence n (s.modPort n fun p => { p with peerPart := part.map (·.val) })))
  else .next s

/-- AUTO_RETRAIN: a port that is down starts training again by itself (R337). -/
def execAutoRetrain (n : Fin 88) (s : State) : Out :=
  let p := s.port n
  if p.autoRetrain && p.state == .disabled then .next (startTraining n s) else .next s

/-- DATA (R339, R340). -/
def execData (n : Fin 88) (fec : FecWork) (f : Frame) (s : State) : Out := .next (rxFrame n .data fec f s)

/-- DATA_T (R339, R340). -/
def execDataT (n : Fin 88) (fec : FecWork) (f : Frame) (s : State) : Out := .next (rxFrame n .dataT fec f s)

/-- IDLE (R340, R341). -/
def execIdle (n : Fin 88) (fec : FecWork) (f : Frame) (s : State) : Out := .next (rxFrame n .idle fec f s)

/-- CTRL: a sequenced control frame (R340); what it says follows from its data. -/
def execCtrl (n : Fin 88) (fec : FecWork) (f : Frame) (s : State) : Out := .next (rxFrame n .ctrl fec f s)

/-- RECAL: the control frame that narrows the port at the SEQ it names (R346). -/
def execRecal (n : Fin 88) (fec : FecWork) (f : Frame) (s : State) : Out := .next (rxFrame n .ctrl fec f s)

/-- RESTORE: the control frame that widens the port at the SEQ it names (R344). -/
def execRestore (n : Fin 88) (fec : FecWork) (f : Frame) (s : State) : Out := .next (rxFrame n .ctrl fec f s)

/-- DEGRADE (R343). -/
def execDegrade (n : Fin 88) (fec : FecWork) (f : Frame) (s : State) : Out := .next (rxFrame n .degrade fec f s)

/-- REPLAY_TIMER: the oldest unacknowledged frame has gone 2 µs since it was last sent (R341). -/
def execReplayTimer (n : Fin 88) (s : State) : Out :=
  if s.live n && !(s.port n).retry.isEmpty then
    .next (resend n (s.modPort n fun p => { p with timerReplays := cnt16 p.timerReplays }))
  else .next s

/-- LANE_FAILURE: a lane fails in the receive direction (R342, R343). -/
def execLaneFailure (n : Fin 88) (k : Fin 4) (cause : LaneCause) (s : State) : Out :=
  .next (linkPoll (laneFails n k cause s))

/-- DEGRADE_REPEAT: DEGRADE is sent again until a frame decodes on the new lanes (R343). -/
def execDegradeRepeat (n : Fin 88) (s : State) : Out :=
  let p := s.port n
  if (s.live n || p.state == .link) && p.degrading then .next (emitFrame n .degrade p.txSeq 31 30 (leBytes 8 p.failed) s) else .next s

/-- LANE_RETRAIN_COMPLETE: a lane that retrained alone has finished (R344). -/
def execLaneRetrainComplete (n : Fin 88) (k : Fin 4) (ok : Bool) (s : State) : Out := .next (laneRetrained n k ok s)

/-- RECALIBRATION_START: a lane's margin or the temperature calls for a full recalibration (R346). -/
def execRecalibrationStart (n : Fin 88) (k : Fin 4) (margin : BitVec 8) (tempMoved : Bool) (s : State) : Out :=
  .next (recalibrate n k margin.toNat tempMoved s)

/-- CDR_LOCK: signal, CDR lock and polarity of a lane (R332, R335). -/
def execCdrLock (n : Fin 88) (k : Fin 4) (inverted : Bool) (s : State) : Out := .next (cdrLocked n k inverted s)

/-- ALIGNMENT_LOCK: FEC and marker lock of a lane in ALIGN (R331, R335). -/
def execAlignmentLock (n : Fin 88) (k : Fin 4) (s : State) : Out :=
  if ((s.port n).lane k).ts == .align then
    .next (settleTraining n (s.modPort n (Port.modLane k fun l => { l with ts := .active, locked := true })))
  else .next s

/-- BAD_FRAME: a frame that fails R340's checks is discarded and counted, and a replay asked for (R341). On a port whose
checker runs, what arrives is a stretch of test pattern (R348). -/
def execBadFrame (n : Fin 88) (fec : FecWork) (s : State) : Out :=
  .next (badFrame n (checkPattern n fec (if (s.port n).state == .loop && (s.port n).loop = 3 then s else noteFec n fec s)))

end Sys2Proof.Machine
end

