-- ==== Sys2Proof/Machine/PowerCmds.lean ====
section
/-! DEFINITION. Commands of power control that are not register writes (14, R392 to R401; 20, R498). -/
namespace Sys2Proof.Machine

/-- ORPHAN: both managers have been silent for SILENCE, and the orphan cap enters C (R397). -/
def execOrphan (s : State) : Out :=
  if !s.power.armed || s.power.orphan || !silent s then .next s else .next (judgeOrphan s)

/-- POWER_ESTIMATE: `watts` is the estimate, and `fit` + 1 the highest duty that fits the limit at the present point;
`hbmFit` says that the HBM issue limit could be one step less (R393, R394). -/
def execPowerEstimate (watts : Nat) (fit : Fin 16) (hbmFit : Bool) (s : State) : Out :=
  if s.power.running then .next (settleCoresTrim (s.modPower (estimate watts (fit.val + 1) hbmFit s.now))) else .next s

/-- WORKING_LIMIT_UPDATE, with the limit that power policy firmware holds while steward runs (R392, R424, assumption 82). -/
def execWorkingLimitUpdate (p10 : Nat) (policy : Option Nat) (s : State) : Out :=
  if s.power.running then
    .next (raiseLimit p10 (s.modPower fun p => { p with policy := if s.mgmt.up then policy else none }))
  else .next s

/-- ESTIMATE_CALIBRATION: the regulators' reads succeed (R393, R498). -/
def execEstimateCalibration (power : Nat) (s : State) : Out :=
  if s.power.running then .next (s.modPower fun p => { p with power := power, pmbusFail := false }) else .next s

/-- PMBUS_READ_FAILURE: the estimate is raised by 8 % until reads succeed again (R498). -/
def execPmbusReadFailure (s : State) : Out :=
  if s.power.running && !s.power.pmbusFail then
    .next (s.modPower fun p => { p with pmbusFail := true, estimate := cdiv (p.estimate * 108) 100 })
  else .next s

/-- OPERATING_POINT_CHANGE: a change completes; `fit` + 1 is the highest duty that fits the limit at the new point (R390, R394,
R498). -/
def execOperatingPointChange (point : Fin 7) (fit : Fin 16) (s : State) : Out :=
  if s.power.running then .next (changePoint point (fit.val + 1) s) else .next s

/-- AVSBUS_TIMEOUT: the operating point is kept, no faster one is used, and the command is tried again (R498). -/
def execAvsbusTimeout (s : State) : Out :=
  if s.power.running then
    .next ((s.modPower fun p => { p with avsFail := true }).emit (.avs (s.power.target.getD s.power.oppt)))
  else .next s

/-- CAP_UNMET: the estimate has exceeded the limit for 1 ms at the lowest rung (R394, R395). -/
def execCapUnmet (s : State) : Out :=
  if s.power.running && lowestRung s.power && overLimit s.power then
    .next (raising (State.modPower fun p => { p with capUnmet := true, evCapUnmet := true }) s)
  else .next s

/-- PWR_WARN_N_ASSERT: duty and HBM issue are clamped, and the warning cap enters C, at each assertion, also where the cap of
the one before has not left C (R396). -/
def execPwrWarnNAssert (s : State) : Out :=
  if !s.power.running then .next s
  else
    .next (settleCoresTrim (lowerLimit (raising (State.modPower fun p =>
      { p with warn := true, evWarn := true, warnCount := cnt16 p.warnCount, duty := min p.duty (p.warnDuty + 1),
               hbmIssue := max 4 p.hbmIssue, clamp := true }) s)))

/-- PWR_WARN_N_RELEASE: the warning cap leaves C (R396). -/
def execPwrWarnNRelease (s : State) : Out := .next (s.modPower fun p => { p with warn := false })

/-- THROTTLE: the controller acts on the hottest junction sensor (R398). -/
def execThrottle (tj : BitVec 8) (sensor : Fin 64) (s : State) : Out :=
  if s.power.running then .next (settleCoresTrim (raising (State.modPower (thermalStep tj.toNat sensor)) s)) else .next s

/-- SW_SLOW: the switch enters TRIM at 105 °C and leaves it at 100 °C (R399). -/
def execSwSlow (temp : BitVec 8) (s : State) : Out :=
  if !s.power.running then .next s
  else if 105 ≤ temp.toNat then
    .next (raising (State.modPower fun p => { p with swSlow := true, evSwSlow := true }) (setDomain Domain.switch.num .trim s))
  else if temp.toNat ≤ 100 && s.power.swSlow then
    .next (setDomain Domain.switch.num .full (s.modPower fun p => { p with swSlow := false }))
  else .next s

/-- HBM_HOT: a stack's issue is limited from 95 °C to 90 °C (R400). -/
def execHbmHot (n : Fin 12) (temp : BitVec 8) (s : State) : Out :=
  if !s.power.running then .next s
  else
    let s := s.modHbm n fun h => { h with temp := temp.toNat }
    if 95 ≤ temp.toNat then
      .next (raising (State.modPower fun p => { p with evHbmHot := true }) (s.modHbm n fun h => { h with hot := true }))
    else if temp.toNat ≤ 90 then .next (s.modHbm n fun h => { h with hot := false })
    else .next s

/-- Is it the domain of a core? -/
def coreDomain (d : Domain) : Bool := match d with
  | .core _ _ => true
  | .pool _ => false
  | .endpoint _ => false
  | .switch => false
  | .port _ => false
  | .hbm _ => false
  | .xp _ => false
  | .spm _ _ => false

/-- DOMAIN_IDLE_ENTRY (R384, R387). -/
def execDomainIdleEntry (d : Domain) (dest : DomState) (s : State) : Out :=
  if s.domain d.num == .full && domainMay s d dest then .next (domainEnter d dest s)
  else if s.domain d.num == .trim && coreDomain d && domainMay s d dest then .next (domainEnter d dest s)
  else if s.domain d.num == .doze && (dest == .park || dest == .off) && domainMay s d dest then .next (domainEnter d dest s)
  else .next s

/-- DOMAIN_WAKE (R385). -/
def execDomainWake (d : Domain) (s : State) : Out :=
  if !(s.domain d.num).awake && domainWakes s d then .next (domainWake d s) else .next s

end Sys2Proof.Machine
end

