-- ==== Sys2Proof/Machine/RegMap.lean ====
section
/-! DEFINITION. The setup register map: which register an aperture address names, who reaches it and when it is ready (17,
R450, R459; 19, R477 to R482). -/
namespace Sys2Proof.Machine

/-- One quadword of a setup register. A `q` is the quadword of a wide register, lowest first. -/
inductive Reg where
  -- GLOBAL
  | identity | grade | position | slot | partition | mgrReject
  | bistMap (m : Nat)
  | accessErr | ready | boot
  | mgrList (n : Nat)
  | roTimeout | flagHold | replayOrder | replaySeq | pkgState | mpSupervise | sillCtrl | sillCpt | sillAux | sillPool
  | sillStatus
  -- HOSTIF
  | portStatus | roleCfg | priWait | memap
  | rq (fq : Bool) (q : Nat)
  | dbErr
  | dasRoot (n : Nat)
  | sq (r q : Nat)
  | cq (r q : Nat)
  -- POWER
  | powerStatus | capHost | capRack | warn | orphan | heartbeat | temp | powerEvent | hbmPark | idleCfg
  | bias (i : Nat)
  -- SWITCH
  | epoch | routeCfg
  | swCount (i : Nat)
  | swEvent
  | gmin (v : Nat)
  | bufCfg | bufStatus | audit | transitCfg | qosCfg | sampleCfg | mirrorCfg | mirrorSkip | cmapCfg
  | route (v i : Nat)
  | mcast (v g q : Nat)
  | pol (i c q : Nat)
  | shape (o v q : Nat)
  | qsample (o v : Nat)
  | cmap (e q : Nat)
  -- PORT_n
  | portCtrl (n : Nat)
  | portStat (n : Nat)
  | peerPos (n : Nat)
  | peerOff (n : Nat)
  | portEvent (n : Nat)
  | linkErr (n : Nat)
  | fence (n : Nat)
  | transit (n : Nat)
  | fenceDrop (n : Nat)
  | lane (n k : Nat)
  | taps (n k : Nat)
  | portTest (n : Nat)
  -- EPB_e
  | lens (e w q : Nat)
  | accordTimeout (e : Nat)
  | lateResp (e : Nat)
  | hdrDrop (e : Nat)
  | holdStatus (e : Nat)
  | holdFull (e : Nat)
  | broken (e : Nat)
  | collideStall (e : Nat)
  | accordNotify (e : Nat)
  | accordStatus (e : Nat)
  -- CLUSTER_c
  | dasSelect (c : Nat)
  | scopeCheck (c : Nat)
  | astat (c k : Nat)
  | coreStop (c k : Nat)
  | teFault (c t q : Nat)
  -- HBM_n, XP_n
  | scrub (n : Nat)
  | hbmErr (n : Nat)
  | xpStatus (n : Nat)
  | xpConfig (n : Nat)
  -- COUNTERS
  | counter (k : CKind) (snap : Bool) (u i : Nat)
  | cntUser | cntChain | cntSnap | cntClear
  | snapTime (i : Nat)
  -- SEAL
  | sealStatus | clearCfg | clear
  | mboxReq (m q : Nat)
  | mboxCtrl (m : Nat)
  | mboxRsp (m q : Nat)
  -- SIDEBAND
  | sbStatus | sbRole | sbSnap
  deriving DecidableEq, Repr

/-! ### Addresses (R477, R482) -/

/-- Quadword number within an array that starts at `base` and has `n` elements of `stride` bytes: element and offset. -/
def within (o base n stride : Nat) : Option (Nat × Nat) :=
  if base ≤ o && o < base + n * stride then some ((o - base) / stride, (o - base) % stride) else none

def regGlobal (o : Nat) : Option Reg :=
  if o = 0x000 then some .identity
  else if o = 0x008 then some .grade
  else if o = 0x010 then some .position
  else if o = 0x018 then some .slot
  else if o = 0x020 then some .partition
  else if o = 0x028 then some .mgrReject
  else if o = 0x030 then some (.bistMap 0)
  else if o = 0x038 then some (.bistMap 1)
  else if o = 0x040 then some .accessErr
  else if o = 0x100 then some .ready
  else if o = 0x108 then some .boot
  else if 0x200 ≤ o && o < 0x240 then some (.mgrList ((o - 0x200) / 8))
  else if o = 0x400 then some .roTimeout
  else if o = 0x408 then some .flagHold
  else if o = 0x500 then some .replayOrder
  else if o = 0x508 then some .replaySeq
  else if o = 0x600 then some .pkgState
  else if o = 0x700 then some .mpSupervise
  else if o = 0x800 then some .sillCtrl
  else if o = 0x808 then some .sillCpt
  else if o = 0x810 then some .sillAux
  else if o = 0x818 then some .sillPool
  else if o = 0x820 then some .sillStatus
  else none

/-- HOSTIF; the MSI-X table and pending-bit array are no setup registers (R353). -/
def regHostif (o : Nat) : Option Reg :=
  if o = 0x00 then some .portStatus
  else if o = 0x08 then some .roleCfg
  else if o = 0x10 then some .priWait
  else if o = 0x18 then some .memap
  else if 0x100 ≤ o && o < 0x120 then some (.rq false ((o - 0x100) / 8))
  else if 0x120 ≤ o && o < 0x140 then some (.rq true ((o - 0x120) / 8))
  else if o = 0x140 then some .dbErr
  else if 0x1000 ≤ o && o < 0x1080 then some (.dasRoot ((o - 0x1000) / 8))
  else match within o 0x10000 256 0x20, within o 0x20000 256 0x20 with
    | some (r, b), _ => if b < 24 then some (.sq r (b / 8)) else none
    | none, some (r, b) => if b < 24 then some (.cq r (b / 8)) else none
    | none, none => none

def regPower (o : Nat) : Option Reg :=
  if o = 0x00 then some .powerStatus
  else if o = 0x08 then some .capHost
  else if o = 0x10 then some .capRack
  else if o = 0x18 then some .warn
  else if o = 0x20 then some .orphan
  else if o = 0x28 then some .heartbeat
  else if o = 0x30 then some .temp
  else if o = 0x38 then some .powerEvent
  else if o = 0x40 then some .hbmPark
  else if o = 0x48 then some .idleCfg
  else if 0x100 ≤ o && o < 0x120 then some (.bias ((o - 0x100) / 8))
  else none

def regSwitchLow (o : Nat) : Option Reg :=
  if o = 0x00 then some .epoch
  else if o = 0x08 then some .routeCfg
  else if 0x10 ≤ o && o < 0x38 then some (.swCount ((o - 0x10) / 8))
  else if o = 0x40 then some .swEvent
  else if 0x100 ≤ o && o < 0x140 then some (.gmin ((o - 0x100) / 8))
  else if o = 0x140 then some .bufCfg
  else if o = 0x148 then some .bufStatus
  else if o = 0x150 then some .audit
  else if o = 0x158 then some .transitCfg
  else if o = 0x160 then some .qosCfg
  else if o = 0x168 then some .sampleCfg
  else if o = 0x170 then some .mirrorCfg
  else if o = 0x178 then some .mirrorSkip
  else if o = 0x180 then some .cmapCfg
  else none

def regSwitch (o : Nat) : Option Reg :=
  if o < 0x10000 then regSwitchLow o
  else if o < 0x11000 then some (.route ((o - 0x10000) / 0x800) ((o - 0x10000) % 0x800 / 8))
  else if o < 0x20000 then none
  else if o < 0x40000 then
    some (.mcast ((o - 0x20000) / 0x10000) ((o - 0x20000) % 0x10000 / 16) (o % 16 / 8))
  else if o < 0x50000 then
    (within o 0x40000 104 0x20).map fun p => .pol p.1 (p.2 / 16) (p.2 % 16 / 8)
  else if o < 0x60000 then
    (within o 0x50000 104 0x80).bind fun p =>
      if p.2 < 0x60 then some (.shape p.1 (p.2 / 16 + 1) (p.2 % 16 / 8)) else none
  else if o < 0x70000 then (within o 0x60000 104 0x40).map fun p => .qsample p.1 (p.2 / 8)
  else (within o 0x70000 38 16).map fun p => .cmap p.1 (p.2 / 8)

def regPort (n o : Nat) : Option Reg :=
  if o = 0x000 then some (.portCtrl n)
  else if o = 0x008 then some (.portStat n)
  else if o = 0x010 then some (.peerPos n)
  else if o = 0x018 then some (.peerOff n)
  else if o = 0x020 then some (.portEvent n)
  else if o = 0x028 then some (.linkErr n)
  else if o = 0x100 then some (.fence n)
  else if o = 0x108 then some (.transit n)
  else if o = 0x110 then some (.fenceDrop n)
  else if o = 0x300 then some (.portTest n)
  else match within o 0x200 4 0x20 with
    | some (k, b) => if b = 0 then some (.lane n k) else if b = 8 then some (.taps n k) else none
    | none => none

def regEpb (e o : Nat) : Option Reg :=
  if o < 0x20000 then some (.lens e (o / 32) (o % 32 / 8))
  else if o = 0x20000 then some (.accordTimeout e)
  else if o = 0x20008 then some (.lateResp e)
  else if o = 0x20010 then some (.hdrDrop e)
  else if o = 0x20018 then some (.holdStatus e)
  else if o = 0x20020 then some (.holdFull e)
  else if o = 0x20028 then some (.broken e)
  else if o = 0x20030 then some (.collideStall e)
  else if o = 0x20038 then some (.accordNotify e)
  else if o = 0x20040 then some (.accordStatus e)
  else none

def regCluster (c o : Nat) : Option Reg :=
  if o = 0x100 then some (.dasSelect c)
  else if o = 0x200 then some (.scopeCheck c)
  else if 0x400 ≤ o && o < 0x440 then some (.astat c ((o - 0x400) / 8))
  else if 0x500 ≤ o && o < 0x540 then some (.coreStop c ((o - 0x500) / 8))
  else (within o 0x600 8 0x40).map fun p => .teFault c p.1 (p.2 / 8)

def regHbm (n o : Nat) : Option Reg :=
  if o = 0x100 then some (.scrub n) else if o = 0x108 then some (.hbmErr n) else none

def regXp (n o : Nat) : Option Reg :=
  if o = 0 then some (.xpStatus n) else if o = 8 then some (.xpConfig n) else none

/-- One kind's counters at the start of its 512 KiB, or its snapshot copies (R472). -/
def regCounter (k : CKind) (units stride : Nat) (snap : Bool) (o : Nat) : Option Reg :=
  (within o 0 units stride).bind fun p => if p.2 / 8 < k.per then some (.counter k snap p.1 (p.2 / 8)) else none

def regCounters (o : Nat) : Option Reg :=
  if o < 0x400000 then
    let snap := o % 0x100000 / 0x80000 == 1
    let b := o % 0x80000
    match o / 0x100000 with
    | 0 => regCounter .core 128 0x200 snap b
    | 1 => regCounter .port 88 0x100 snap b
    | 2 => regCounter .epb 16 0x100 snap b
    | _ => regCounter .hbm 12 0x80 snap b
  else if o = 0x400000 then some .cntUser
  else if o = 0x400008 then some .cntChain
  else if o = 0x400010 then some .cntSnap
  else if o = 0x400018 then some .cntClear
  else if 0x400020 ≤ o && o < 0x400040 then some (.snapTime ((o - 0x400020) / 8))
  else none

def regSeal (o : Nat) : Option Reg :=
  if o = 0x00 then some .sealStatus
  else if o = 0x10 then some .clearCfg
  else if o = 0x18 then some .clear
  else match within o 0x10000 3 0x10000 with
    | some (m, b) =>
      if b < 0x40 then some (.mboxReq m (b / 8))
      else if b = 0x40 then some (.mboxCtrl m)
      else if 0x1000 ≤ b && b < 0xA000 then some (.mboxRsp m ((b - 0x1000) / 8))
      else none
    | none => none

def regSideband (o : Nat) : Option Reg :=
  if o = 0 then some .sbStatus else if o = 8 then some .sbRole else if o = 16 then some .sbSnap else none

/-- The register quadword at an aligned address; a hole has none (R477). -/
def regAt (a : Nat) : Option Reg :=
  if a < 0x100000 then regGlobal a
  else if a < 0x400000 then regHostif (a - 0x100000)
  else if a < 0x800000 then regPower (a - 0x400000)
  else if a < 0x1000000 then regSwitch (a - 0x800000)
  else if a < 0x1580000 then regPort ((a - 0x1000000) / 0x10000) (a % 0x10000)
  else if a < 0x1800000 then none
  else if a < 0x1C00000 then regEpb ((a - 0x1800000) / 0x40000) (a % 0x40000)
  else if a < 0x2000000 then none
  else if a < 0x2400000 then regCluster ((a - 0x2000000) / 0x40000) (a % 0x40000)
  else if a < 0x24C0000 then regHbm ((a - 0x2400000) / 0x10000) (a % 0x10000)
  else if a < 0x2600000 then none
  else if a < 0x2640000 then regXp ((a - 0x2600000) / 0x10000) (a % 0x10000)
  else if a < 0x2800000 then none
  else if a < 0x3000000 then regCounters (a - 0x2800000)
  else if a < 0x3800000 then regSeal (a - 0x3000000)
  else if a < 0x4000000 then regSideband (a - 0x3800000)
  else none

/-! ### Reach -/

/-- Whether a path reads and writes a register. -/
inductive Access where
  | rw
  /-- writes are ignored -/
  | readOnly
  /-- reads zero, and writes are ignored -/
  | zero
  /-- out of reach: PERMISSION (R458) -/
  | none
  deriving DecidableEq, Repr

/-- Blocks the side-band and MGMT reach whole, holes included (R459). -/
def wholeReach (a : Nat) : Bool :=
  a < 0x100000 || (0x400000 ≤ a && a < 0x1580000) || (0x3800000 ≤ a && a < 0x4000000)

/-- The Aperture column: access through the setup aperture of port `x` (R482). Registers of which a host writes a part are
read and written; the write itself keeps to that part. -/
def hostAccess (x : Nat) : Reg → Access
  | .identity | .grade | .partition | .bistMap _ | .ready | .replaySeq => .readOnly
  | .replayOrder => .zero
  | .powerStatus | .capRack | .warn | .orphan | .heartbeat => .readOnly
  | .epoch | .routeCfg | .bufStatus | .transitCfg | .route _ _ | .mcast _ _ _ => .readOnly
  | .swCount _ | .swEvent | .audit | .sampleCfg | .mirrorCfg | .mirrorSkip | .cmapCfg | .qsample _ _ | .cmap _ _ => .zero
  | .portCtrl _ | .portStat _ | .peerPos _ | .peerOff _ | .portEvent _ | .linkErr _ | .fence _ | .transit _ | .fenceDrop _
  | .lane _ _ | .taps _ _ | .portTest _ => .zero
  | .holdStatus _ | .accordStatus _ | .astat _ _ | .coreStop _ _ | .teFault _ _ _ => .readOnly
  | .xpStatus _ | .snapTime _ | .sealStatus | .clearCfg | .clear | .sbStatus => .readOnly
  | .counter k snap _ _ => match k with
    | .port => .zero
    | .core => if snap then .readOnly else .rw
    | .epb => if snap then .readOnly else .rw
    | .hbm => if snap then .readOnly else .rw
  | .mboxReq m _ | .mboxCtrl m | .mboxRsp m _ => if m = x then .rw else .zero
  | .sbRole | .sbSnap => .zero
  | .position | .slot | .mgrReject | .accessErr | .boot | .mgrList _ | .roTimeout | .flagHold | .pkgState | .mpSupervise
  | .sillCtrl | .sillCpt | .sillAux | .sillPool | .sillStatus => .rw
  | .portStatus | .roleCfg | .priWait | .memap | .rq _ _ | .dbErr | .dasRoot _ | .sq _ _ | .cq _ _ => .rw
  | .capHost | .temp | .powerEvent | .hbmPark | .idleCfg | .bias _ => .rw
  | .gmin _ | .bufCfg | .qosCfg | .pol _ _ _ | .shape _ _ _ => .rw
  | .lens _ _ _ | .accordTimeout _ | .lateResp _ | .hdrDrop _ | .holdFull _ | .broken _ | .collideStall _
  | .accordNotify _ => .rw
  | .dasSelect _ | .scopeCheck _ => .rw
  | .scrub _ | .hbmErr _ | .xpConfig _ => .rw
  | .cntUser | .cntChain | .cntSnap | .cntClear => .rw

/-- Access through the side-band and by management packets (R459, R482). -/
def fmAccess : Reg → Access
  | .portStatus | .roleCfg | .priWait | .memap | .rq _ _ | .dbErr | .dasRoot _ | .sq _ _ | .cq _ _ => .none
  | .lens _ _ _ | .accordTimeout _ | .lateResp _ | .hdrDrop _ | .holdStatus _ | .holdFull _ | .broken _ | .collideStall _
  | .accordNotify _ | .accordStatus _ => .none
  | .dasSelect _ | .scopeCheck _ | .astat _ _ | .coreStop _ _ | .teFault _ _ _ => .none
  | .xpConfig _ | .cntClear => .none
  | .xpStatus _ | .counter _ _ _ _ | .cntUser | .cntChain | .cntSnap | .snapTime _ | .sealStatus | .clear => .readOnly
  | .mboxReq m _ | .mboxCtrl m | .mboxRsp m _ => if m = 2 then .rw else .none
  | .identity | .grade | .position | .slot | .partition | .mgrReject | .bistMap _ | .accessErr | .ready | .boot | .mgrList _
  | .roTimeout | .flagHold | .replayOrder | .replaySeq | .pkgState | .mpSupervise | .sillCtrl | .sillCpt | .sillAux
  | .sillPool | .sillStatus => .rw
  | .powerStatus | .capHost | .capRack | .warn | .orphan | .heartbeat | .temp | .powerEvent | .hbmPark | .idleCfg
  | .bias _ => .rw
  | .epoch | .routeCfg | .swCount _ | .swEvent | .gmin _ | .bufCfg | .bufStatus | .audit | .transitCfg | .qosCfg
  | .sampleCfg | .mirrorCfg | .mirrorSkip | .cmapCfg | .route _ _ | .mcast _ _ _ | .pol _ _ _ | .shape _ _ _
  | .qsample _ _ | .cmap _ _ => .rw
  | .portCtrl _ | .portStat _ | .peerPos _ | .peerOff _ | .portEvent _ | .linkErr _ | .fence _ | .transit _ | .fenceDrop _
  | .lane _ _ | .taps _ _ | .portTest _ => .rw
  | .scrub _ | .hbmErr _ | .clearCfg | .sbStatus | .sbRole | .sbSnap => .rw

/-- Access of steward: mailbox 2 is its own, and it reads what the fabric manager reads. The manual gives it no other write,
and a request for a package state is refused (R409, R425, R430, R472, assumption 81). -/
def stewardAccess (r : Reg) : Access :=
  if fmAccess r == .none then .zero
  else match r with
  | .mboxReq _ _ | .mboxCtrl _ | .mboxRsp _ _ | .pkgState => .rw
  | _ => .readOnly

/-- Does a fence of R425 refuse steward's write: one of a SEAL register, of the grade and the identity, of the orphan cap
and of the watchdog? -/
def stewardFence : Reg → Bool
  | .sealStatus | .clearCfg | .clear | .mboxReq _ _ | .mboxCtrl _ | .mboxRsp _ _ | .grade | .identity | .orphan
  | .mpSupervise => true
  | _ => false

/-- Access by a path. -/
def regAccess (p : Path) (r : Reg) : Access :=
  match p with
  | .hp x => hostAccess x r
  | .sideband => fmAccess r
  | .mgmt _ => fmAccess r
  | .steward => stewardAccess r

/-! ### Readiness (R449, R450) -/

/-- Is the unit of a register ready? GLOBAL, POWER and SIDEBAND always are, and HOSTIF is while its port can be reached. -/
def regReady (s : State) : Reg → Bool
  | .epoch | .routeCfg | .swCount _ | .swEvent | .gmin _ | .bufCfg | .bufStatus | .audit | .transitCfg | .qosCfg
  | .sampleCfg | .mirrorCfg | .mirrorSkip | .cmapCfg | .route _ _ | .mcast _ _ _ | .pol _ _ _ | .shape _ _ _
  | .qsample _ _ | .cmap _ _ => s.sw.ready
  | .portCtrl _ | .portStat _ | .peerPos _ | .peerOff _ | .portEvent _ | .linkErr _ | .fence _ | .transit _ | .fenceDrop _
  | .lane _ _ | .taps _ _ | .portTest _ => s.sw.ready
  | .lens e _ _ | .accordTimeout e | .lateResp e | .hdrDrop e | .holdStatus e | .holdFull e | .broken e | .collideStall e
  | .accordNotify e | .accordStatus e => bit s.boot.epbReady e
  | .dasSelect c | .scopeCheck c | .astat c _ | .coreStop c _ | .teFault c _ _ => bit s.boot.epbReady c
  | .scrub n | .hbmErr n => (s.hbm n).ready
  | .xpStatus n | .xpConfig n => (s.xp n).devReady
  | .counter _ _ _ _ | .cntUser | .cntChain | .cntSnap | .cntClear | .snapTime _ => s.boot.counters
  | .sealStatus | .clearCfg | .clear | .mboxReq _ _ | .mboxCtrl _ | .mboxRsp _ _ => s.sealCore.ready
  | .identity | .grade | .position | .slot | .partition | .mgrReject | .bistMap _ | .accessErr | .ready | .boot | .mgrList _
  | .roTimeout | .flagHold | .replayOrder | .replaySeq | .pkgState | .mpSupervise | .sillCtrl | .sillCpt | .sillAux
  | .sillPool | .sillStatus => true
  | .portStatus | .roleCfg | .priWait | .memap | .rq _ _ | .dbErr | .dasRoot _ | .sq _ _ | .cq _ _ => true
  | .powerStatus | .capHost | .capRack | .warn | .orphan | .heartbeat | .temp | .powerEvent | .hbmPark | .idleCfg
  | .bias _ => true
  | .sbStatus | .sbRole | .sbSnap => true

end Sys2Proof.Machine
end

