-- ==== Sys2Proof/Machine/RegRead.lean ====
section
/-! DEFINITION. Reading setup registers: the value of each quadword, and the read effect of its RC fields (R13, and the
rule each register's row of R482 names). -/
namespace Sys2Proof.Machine

/-- Quadword `q` of a wide value. -/
def quadOf (v q : Nat) : Nat := bits v (64 * q + 63) (64 * q)

/-! ### Values of GLOBAL -/

/-- GLOBAL.READY (R449). -/
def readyWord (s : State) : Nat :=
  let hbm := maskOf (filterBelow 12 fun n => (s.hbm n).ready)
  let xp := maskOf (filterBelow 4 fun n => (s.xp n).devReady)
  s.boot.epbReady + fld 16 (s.boot.enabled &&& s.boot.epbReady) + fld 32 hbm + fld 44 (b2n s.sw.ready)
  + fld 45 (b2n (hostCan s 0)) + fld 46 (b2n (hostCan s 1)) + fld 47 (b2n s.sealCore.ready) + fld 48 (b2n s.mgmt.up)
  + fld 49 (b2n s.power.running) + fld 50 (b2n s.boot.counters) + fld 56 xp
  + fld 60 (b2n ((List.range 12).any fun n => (s.hbm n).fail))

/-- GLOBAL.GRADE (R483). -/
def gradeWord (b : Boot) : Nat :=
  b.code + fld 2 b.fault + fld 16 b.enabled + fld 32 (8 * (bitsOf 16 b.enabled).length)

/-- GLOBAL.ACCESS_ERR. -/
def accessErrWord (e : AccessErr) : Nat := e.count + fld 32 e.addr + fld 58 e.source + fld 60 (b2n e.write)

/-- GLOBAL.PKG_STATE (R409). -/
def pkgWord (s : State) : Nat :=
  s.glob.state.code + fld 8 (b2n (quiet s)) + fld 9 (b2n s.glob.refused) + fld 16 s.glob.changes

/-- GLOBAL.MP_SUPERVISE (R422). -/
def superviseWord (m : Mgmt) : Nat :=
  m.beats + fld 32 m.restarts + fld 40 m.cause + fld 42 (b2n m.up) + fld 44 (b2n m.restarted)

/-- GLOBAL.BOOT (R448). -/
def bootWord (b : Boot) : Nat := b.state + fld 3 (b2n b.source) + fld 4 (b2n b.copy) + fld 32 b.early

/-- GLOBAL.PARTITION (R484). -/
def partitionWord (g : Global) : Nat := g.part.getD 0 + fld 6 (b2n g.part.isSome) + fld 7 (b2n g.sealed_)

def sillCtrlWord (l : Sillage) : Nat :=
  b2n l.en + fld 1 l.cluster + fld 5 l.te + fld 8 l.agePeriod + fld 20 l.low + fld 40 l.high
def sillCptWord (l : Sillage) : Nat := l.cptBase + fld 22 l.cptLog2
def sillAuxWord (l : Sillage) : Nat := l.pgtBase + fld 22 l.pgtLog2 + fld 32 l.wearBase + fld 54 l.wearDelta
def sillPoolWord (l : Sillage) : Nat := l.first + fld 32 l.last
def sillStatusWord (s : State) : Nat :=
  freeFrames s + fld 32 (min 0xFFFF s.sill.moves.length) + fld 48 s.sill.waitExpired

/-! ### Values of HOSTIF (R354, R355, R379, R381) -/

def roleWord (h : HostPort) : Nat := b2n h.main + fld 2 (b2n h.allow) + fld 3 (b2n h.auto) + fld 8 h.hold

def sqWord (q : Sq) : Nat :=
  b2n q.en + fld 1 (b2n q.control) + fld 2 q.log2 + q.base + fld 64 q.cluster + fld 68 q.te + fld 72 q.cq + fld 80 q.das
  + fld 84 (b2n q.pasidEn) + fld 85 q.pasid + fld 128 q.head + fld 160 q.rejects + fld 176 (b2n q.dbRange)
  + fld 177 (b2n q.stopped)

def cqWord (q : Cq) : Nat :=
  b2n q.en + fld 1 q.log2 + q.base + fld 64 q.vector + fld 75 (b2n q.irqEn) + fld 76 q.coalesce + fld 84 q.timer
  + fld 128 q.tail + fld 160 (b2n q.phase) + fld 161 (b2n q.dbRange)

def rqWord (q : Rq) : Nat :=
  b2n q.en + fld 1 q.log2 + q.base + fld 64 q.vector + fld 75 (b2n q.irqEn) + fld 128 q.tail + fld 160 (b2n q.phase)
  + fld 161 (b2n q.dbRange) + fld 162 (b2n q.overflowed) + fld 192 q.overflow

def dasRootWord (s : State) (n : Nat) : Nat :=
  b2n (SMap.get false s.glob.dasValid n) + fld 21 (SMap.get 0 s.glob.dasRoot n)

/-! ### Values of POWER (R391, R396 to R398, R403) -/

def powerWord (p : Power) : Nat :=
  min 0xFFF p.limit + fld 12 (min 0xFFF p.power) + fld 24 p.oppt + fld 27 (p.duty - 1) + fld 32 (b2n p.clamp) + fld 33 (b2n p.capUnmet)
  + fld 34 (b2n p.warn) + fld 35 (b2n p.orphan) + fld 36 (b2n p.throttle) + fld 37 (b2n p.swSlow) + fld 38 p.hbmIssue

def tempWord (s : State) : Nat :=
  s.power.tjMax + fld 8 s.power.sensor + fld 16 (hbmMax s) + fld 24 s.power.throttleC

def powerEventWord (p : Power) : Nat :=
  b2n p.evCapUnmet + fld 1 (b2n p.evWarn) + fld 2 (b2n p.evOrphan) + fld 3 (b2n p.evThrottle) + fld 4 (b2n p.evSwSlow)
  + fld 5 (b2n p.evHbmHot)

/-! ### Values of SWITCH (10, 11) -/

def swCountOf (w : Switch) (i : Nat) : Nat :=
  match i with
  | 0 => w.noRoute
  | 1 => w.hopLimit
  | 2 => w.hdrErr
  | 3 => w.ageDrop
  | _ => w.downDrop

def swCountZero (i : Nat) (w : Switch) : Switch :=
  match i with
  | 0 => { w with noRoute := 0 }
  | 1 => { w with hopLimit := 0 }
  | 2 => { w with hdrErr := 0 }
  | 3 => { w with ageDrop := 0 }
  | _ => { w with downDrop := 0 }

def swEventWord (w : Switch) : Nat :=
  b2n w.evNoRoute + fld 1 (b2n w.evHopLimit) + fld 2 (b2n w.evPortDown) + fld 3 (b2n w.evPortUp) + fld 4 (b2n w.evWiring)
  + fld 5 (b2n w.evAge) + fld 8 w.evPort

def auditWord (w : Switch) : Nat :=
  w.passes + fld 32 w.leaked + fld 48 w.conflict + fld 62 (b2n w.leakEv) + fld 63 (b2n w.conflictEv)

def mirrorWord (m : MirrorCfg) : Nat :=
  b2n m.en + fld 1 m.n + fld 17 m.trunc + fld 19 (b2n m.all) + fld 20 m.input + fld 27 m.vcmask + fld 35 (b2n m.redOnly)

def routeWord (e : RouteEntry) : Nat :=
  b2n e.valid + fld 1 e.dpos + fld 9 (b2n e.adapt) + fld 10 (b2n e.expl) + fld 11 e.next + fld 16 e.order

def mcastWord (e : McastEntry) : Nat :=
  b2n e.valid + fld 1 e.part + fld 7 e.mcount + fld 19 e.loc + fld 35 e.root + fld 64 e.row + fld 86 e.col

def bucketWord (b : BucketCfg) : Nat := b2n b.en + fld 1 b.cr + fld 16 b.pr + fld 64 b.cb + fld 80 b.pb

def qsampleWord (q : QSample) : Nat := q.depth + fld 24 q.peak + fld 48 q.delay

def cmapWord (m : CMap) : Nat :=
  m.reqOcc + fld 24 m.rspOcc + fld 48 m.noCredit + fld 64 m.maxDelay + fld 80 m.detours + fld 96 m.live

def routeAt (w : Switch) (v i : Nat) : RouteEntry := SMap.get RouteEntry.reset w.routes (256 * v + i)
def mcastAt (w : Switch) (v g : Nat) : McastEntry := SMap.get McastEntry.reset w.mcast (4096 * v + g)
def policerAt (w : Switch) (i c : Nat) : Bucket := SMap.get Bucket.reset w.policers (2 * i + c)
def shaperAt (w : Switch) (o v : Nat) : Bucket := SMap.get Bucket.reset w.shapers (8 * o + v)
def qsampleAt (w : Switch) (o v : Nat) : QSample := SMap.get QSample.reset w.qsample (8 * o + v)

/-! ### Values of PORT_n (12, R294, R295) -/

def PortState.code : PortState → Nat
  | .disabled => 0
  | .detect => 1
  | .cap => 2
  | .rate => 3
  | .tap => 4
  | .align => 5
  | .link => 6
  | .up => 7
  | .loop => 8
  | .test => 9

def TransitMode.code : TransitMode → Nat
  | .none => 0
  | .through => 1
  | .edge => 2

def portCtrlWord (p : Port) : Nat :=
  b2n p.en + fld 1 p.maxVer + fld 3 (b2n p.noPrecode) + fld 4 (b2n p.autoRetrain) + fld 5 (b2n p.recalEn) + fld 6 p.loop

def portStatWord (p : Port) : Nat :=
  p.state.code + fld 4 p.version + fld 6 p.lanesOn + fld 10 p.failed + fld 14 (b2n p.wiring) + fld 16 p.trainings
  + fld 32 p.widthChanges

def portEventWord (p : Port) : Nat :=
  b2n p.evDegrade + fld 1 (b2n p.evRestore) + fld 2 (b2n p.evMarginal) + fld 3 (b2n p.evRetrainFail)

def fenceWord (p : Port) : Nat :=
  b2n p.force + fld 1 (b2n p.fenced) + fld 2 (b2n p.peerPart.isSome) + fld 3 (p.peerPart.getD 0)

def transitWord (p : Port) : Nat := p.tmode.code + fld 2 p.tpart + fld 8 p.tout

def laneWord (p : Port) (k : Nat) : Nat :=
  let l := p.lane k
  b2n l.los + fld 1 (b2n l.lol) + fld 2 (b2n l.locked) + fld 3 (b2n (bit p.failed k)) + fld 4 (b2n l.polarity)
  + fld 8 l.corrSym + fld 32 l.uncorrCw + fld 48 l.margin

def tapsWord (t : Taps Int) : Nat :=
  ofInt 8 t.m3 + fld 8 (ofInt 8 t.m2) + fld 16 (ofInt 8 t.m1) + fld 24 (ofInt 8 t.c0) + fld 32 (ofInt 8 t.p1)

def testWord (p : Port) : Nat :=
  b2n p.testGen + fld 1 (b2n p.testChk) + fld 2 p.testPattern + fld 32 p.testErrors

/-! ### Values of EPB_e, CLUSTER_c, XP_n, SEAL -/

def holdWord (b : Epb) : Nat :=
  let held := heldPkts b
  held.length + fld 16 ((held.map holdCells).foldl (· + ·) 0) + fld 32 b.streams.length + fld 48 b.collide.length

def astatWord (k : Core) : Nat := b2n k.exactRange + fld 1 (b2n k.sat) + fld 2 (b2n k.nan) + fld 3 (b2n k.parStop)

def xpStatusWord (s : State) (n : Nat) : Nat :=
  let x := s.xp n
  b2n x.linkUp + fld 1 x.rate + fld 3 (b2n x.narrow) + fld 4 (b2n x.devReady) + fld 5 (b2n (xpClipped s n))
  + fld 16 (usableGib s n) + fld 32 (parkedOn s n)

def xpConfigWord (s : State) (n : Nat) : Nat :=
  let x := s.xp n
  b2n x.en + fld 1 (x.tierOf n) + fld 16 x.direct

def sealWord (k : Seal) : Nat :=
  b2n k.ready + fld 1 (b2n k.ident) + fld 2 (b2n k.identFail) + fld 3 (b2n k.noiseFail) + fld 4 (b2n k.conf)
  + fld 16 k.log.length + fld 32 k.blocked

def clearWord (k : Seal) : Nat :=
  k.phase + fld 3 k.portsDone + fld 8 k.percent + fld 16 k.result + fld 24 k.seq

def mboxWord (b : Mbox) : Nat := fld 1 (b2n b.busy) + fld 8 b.status + fld 16 b.rsp.length

def sbWord (b : Sideband) : Nat := b.daddr + fld 7 (b2n (b.daddr != 0)) + fld 8 b.eid + fld 16 b.discard

def snapWord (c : Counters) : Nat := fld 8 (b2n c.busy) + fld 16 c.seq

/-! ### Reads -/

/-- A register that reads zero in a confidential partition (R435). -/
def confHides (s : State) (v : Nat) : Nat := if s.sealCore.conf then 0 else v

/-- What reading a quadword clears, in a partition that is not confidential. -/
def confKeeps (f : State → State) (s : State) : State := if s.sealCore.conf then s else f s

/-- A read of one register quadword through the aperture of port `x`, or through the side-band or MGMT: the value, and the
state once its RC fields are cleared. -/
def regValue (x : Nat) (r : Reg) (s : State) : Nat × State :=
  match r with
  | .identity => (0x00A1 + fld 16 0x9600, s)
  | .grade => (gradeWord s.boot, s)
  | .position => (s.glob.position + fld 8 (b2n s.glob.positionValid), s)
  | .slot => (s.glob.slot + fld 8 (b2n s.glob.slotValid), s)
  | .partition => (partitionWord s.glob, s)
  | .mgrReject => (s.glob.mgrReject, s.modGlob fun g => { g with mgrReject := 0 })
  | .bistMap m => (quadOf s.boot.pass m, s)
  | .accessErr =>
    (accessErrWord s.glob.accessErr, s.modGlob fun g => { g with accessErr := { g.accessErr with count := 0 } })
  | .ready => (readyWord s, s)
  | .boot => (bootWord s.boot, s.modBoot fun b => { b with early := 0 })
  | .mgrList n => ((SMap.get MgrEntry.reset s.glob.mgrs n).node + fld 12 (b2n (SMap.get MgrEntry.reset s.glob.mgrs n).valid), s)
  | .roTimeout => (s.glob.roUs, s)
  | .flagHold => (s.glob.holdUs, s)
  | .replayOrder => (0, s)
  | .replaySeq => (s.glob.replaySeq, s)
  | .pkgState => (pkgWord s, s)
  | .mpSupervise => (superviseWord s.mgmt, s)
  | .sillCtrl => (sillCtrlWord s.sill, s)
  | .sillCpt => (sillCptWord s.sill, s)
  | .sillAux => (sillAuxWord s.sill, s)
  | .sillPool => (sillPoolWord s.sill, s)
  | .sillStatus => (sillStatusWord s, s.modSill fun l => { l with waitExpired := 0 })
  | .portStatus => (b2n (s.host x).linkUp + fld 1 (s.host x).rate + fld 3 (s.host x).width, s)
  | .roleCfg => (roleWord (s.host x), s)
  | .priWait => ((s.host x).priMs, s)
  | .memap => (b2n (s.host x).memEn + fld 36 (s.host x).memBase, s)
  | .rq fq q =>
    (quadOf (rqWord ((s.host x).rq fq)) q, if q = 3 then s.modRq fq x fun q => { q with overflow := 0 } else s)
  | .dbErr => ((s.host x).dbErr, s.modHost x fun h => { h with dbErr := 0 })
  | .dasRoot n => (dasRootWord s n, s)
  | .sq i q => (quadOf (sqWord ((s.host x).sqAt i)) q, if q = 2 then s.modSq x i fun q => { q with rejects := 0 } else s)
  | .cq i q => (quadOf (cqWord ((s.host x).cqAt i)) q, s)
  | .powerStatus => (powerWord s.power, s)
  | .capHost => (capOf s s.power.capHost, s)
  | .capRack => (capOf s s.power.capRack, s)
  | .warn =>
    (s.power.warnCap + fld 12 s.power.warnDuty + fld 16 s.power.warnCount, s.modPower fun p => { p with warnCount := 0 })
  | .orphan => (s.power.orphanCap + fld 12 s.power.silence + fld 19 (b2n s.power.armed), s)
  | .heartbeat => (fld 16 (beatAge s s.power.beat0) + fld 32 (beatAge s s.power.beat1), s)
  | .temp => (tempWord s, s)
  | .powerEvent => (powerEventWord s.power, s)
  | .hbmPark => (s.power.hbmPark, s)
  | .idleCfg => (s.power.poolUs, s)
  | .bias i => (SMap.get 0 s.power.bias i, s)
  | .epoch => (s.sw.epoch + fld 1 (b2n s.sw.drained), s)
  | .routeCfg => (b2n s.sw.fixed + fld 4 s.sw.detour, s)
  | .swCount i => (swCountOf s.sw i, s.modSw (swCountZero i))
  | .swEvent => (swEventWord s.sw, s)
  | .gmin v => (SMap.get 0 s.sw.gmin v, s)
  | .bufCfg => (s.sw.inLimit + fld 32 s.sw.yellowFloor, s)
  | .bufStatus => (s.sw.free + fld 32 s.sw.sharedUsed, s)
  | .audit => (auditWord s.sw, s.modSw fun w => { w with leaked := 0, conflict := 0 })
  | .transitCfg => (s.sw.tperiod + fld 16 s.sw.tslots, s)
  | .qosCfg => (s.sw.idleUs, s)
  | .sampleCfg => (s.sw.sampleUs, s)
  | .mirrorCfg => (mirrorWord s.sw.mirror, s)
  | .mirrorSkip => (s.sw.mirrorSkip, s.modSw fun w => { w with mirrorSkip := 0 })
  | .cmapCfg => (s.sw.cmapUs + fld 32 s.sw.cmapSeq, s)
  | .route v i => (routeWord (routeAt s.sw v i), s)
  | .mcast v g q => (quadOf (mcastWord (mcastAt s.sw v g)) q, s)
  | .pol i c q => (quadOf (bucketWord (policerAt s.sw i c).cfg) q, s)
  | .shape o v q => (quadOf (bucketWord (shaperAt s.sw o v).cfg) q, s)
  | .qsample o v =>
    (qsampleWord (qsampleAt s.sw o v),
     s.modSw fun w => { w with qsample := SMap.upd QSample.reset w.qsample (8 * o + v) fun q => { q with peak := 0 } })
  | .cmap e q => (quadOf (cmapWord (SMap.get CMap.reset s.sw.cmap e)) q, s)
  | .portCtrl n => (portCtrlWord (s.port n), s)
  | .portStat n => (portStatWord (s.port n), s)
  | .peerPos n => ((s.port n).peerPos, s)
  | .peerOff n => ((s.port n).peerOff, s)
  | .portEvent n => (portEventWord (s.port n), s)
  | .linkErr n =>
    ((s.port n).replays + fld 16 (s.port n).timerReplays + fld 32 (s.port n).crcErr,
     s.modPort n fun p => { p with replays := 0, timerReplays := 0, crcErr := 0 })
  | .fence n => (fenceWord (s.port n), s)
  | .transit n => (transitWord (s.port n), s)
  | .fenceDrop n => ((s.port n).fenceDrop, s.modPort n fun p => { p with fenceDrop := 0 })
  | .lane n k => (laneWord (s.port n) k, s.modPort n (Port.modLane k fun l => { l with corrSym := 0, uncorrCw := 0 }))
  | .taps n k => (tapsWord ((s.port n).lane k).taps, s)
  | .portTest n => (testWord (s.port n), s.modPort n fun p => { p with testErrors := 0 })
  | .lens e w q => (quadOf (descVal (LensDesc.at_w s e w)) q, s)
  | .accordTimeout e => ((s.epb e).accordUs, s)
  | .lateResp e => ((s.epb e).lateResp, s.modEpb e fun b => { b with lateResp := 0 })
  | .hdrDrop e => ((s.epb e).hdrDrop, s.modEpb e fun b => { b with hdrDrop := 0 })
  | .holdStatus e => (confHides s (holdWord (s.epb e)), s)
  | .holdFull e =>
    (confHides s (s.epb e).holdFull, confKeeps (State.modEpb e fun b => { b with holdFull := 0 }) s)
  | .broken e =>
    (confHides s ((s.epb e).brokenTimeouts + fld 16 (s.epb e).brokenChecks),
     confKeeps (State.modEpb e fun b => { b with brokenTimeouts := 0, brokenChecks := 0 }) s)
  | .collideStall e =>
    (confHides s (s.epb e).collideStall, confKeeps (State.modEpb e fun b => { b with collideStall := 0 }) s)
  | .accordNotify e => (b2n (s.epb e).notifyEn + fld 13 (s.epb e).notifyBase, s)
  | .accordStatus e => ((openSessions (s.epb e)).length + fld 16 (stagedBytes (s.epb e) / 16), s)
  | .dasSelect c => ((s.cluster c).dasSelect, s)
  | .scopeCheck c =>
    (confHides s (s.cluster c).scopeCheck, confKeeps (State.modCluster c fun cl => { cl with scopeCheck := 0 }) s)
  | .astat c k => (confHides s (astatWord (s.core c k)), s)
  | .coreStop c k => (confHides s (s.core c k).stop, s)
  | .teFault c t q => (confHides s (leAt (s.te c t).fault (8 * q) 8), s)
  | .scrub n => ((s.hbm n).period + fld 16 (s.hbm n).passes, s)
  | .hbmErr n => ((s.hbm n).ueCount + fld 16 (s.hbm n).lastUe, s.modHbm n fun h => { h with ueCount := 0 })
  | .xpStatus n => (xpStatusWord s n, s)
  | .xpConfig n => (xpConfigWord s n, s)
  | .counter k snap u i => (confHides s (counterWord s k snap u i), s)
  | .cntUser => (s.cnt.user, s)
  | .cntChain => (s.cnt.chain, s)
  | .cntSnap => (snapWord s.cnt, s)
  | .cntClear => (0, s)
  | .snapTime i => (SMap.get 0 s.cnt.times i, s)
  | .sealStatus => (sealWord s.sealCore, s.modSeal fun k => { k with blocked := 0 })
  | .clearCfg => (s.sealCore.method + fld 8 s.sealCore.limitS, s)
  | .clear => (clearWord s.sealCore, s)
  | .mboxReq m q => (leAt (fitBytes 64 (s.mbox m).req) (8 * q) 8, s)
  | .mboxCtrl m => (mboxWord (s.mbox m), s)
  | .mboxRsp m q => (leAt (s.mbox m).rsp (8 * q) 8, s)
  | .sbStatus => (sbWord s.sb, s.modSb fun b => { b with discard := 0 })
  | .sbRole => (0, s)
  | .sbSnap => (0, s)

end Sys2Proof.Machine
end

