-- ==== Sys2Proof/Machine/RegPut.lean ====
section
/-! DEFINITION. Writing setup registers: what a write of each quadword does, with the checks of the rule its row of R482
names. A write a rule does not accept is ignored (R481). -/
namespace Sys2Proof.Machine

/-! ### Staging (R480) -/

/-- Stage a quadword above the lowest. -/
def stage (key v : Nat) : State → State := State.modGlob fun g => { g with staged := SMap.set 0 g.staged key (1 + v) }

/-- A staged quadword, or the committed one. -/
def stagedOr (s : State) (key cur : Nat) : Nat :=
  let v := SMap.get 0 s.glob.staged key
  if v = 0 then cur else v - 1

/-- The staged quadwords 1 to 3 above a lowest quadword are committed or discarded. -/
def unstage (key : Nat) : State → State := State.modGlob fun g =>
  { g with staged := g.staged.filter fun q => !(key < q.1 && q.1 < key + 32) }

/-- The value a lowest-quadword write commits: the quadwords above it as staged, or as they stand. -/
def wideOf (s : State) (key low cur n : Nat) : Nat :=
  low + ((List.range n).map fun i => fld (64 * (i + 1)) (stagedOr s (key + 8 * (i + 1)) (quadOf cur (i + 1)))).foldl (· + ·) 0

/-- A field's new value if it lies in its range, else its old one. -/
def inRange (lo hi new old : Nat) : Nat := if lo ≤ new && new ≤ hi then new else old

/-! ### GLOBAL -/

/-- GLOBAL.POSITION and GLOBAL.SLOT (R18); with both valid, link bring-up goes on (R19, R336). -/
def positionWrite (v : Nat) (s : State) : State :=
  if s.glob.state == .unconfigured && bits v 7 0 < 144 then
    linkPoll (s.modGlob fun g => { g with position := bits v 7 0, positionValid := true })
  else s

def slotWrite (v : Nat) (s : State) : State :=
  if (s.glob.state == .unconfigured || s.glob.state == .configured) && bits v 7 0 < 144 then
    linkPoll (s.modGlob fun g => { g with slot := bits v 7 0, slotValid := true })
  else s

/-- Has any port a transit grant? -/
def anyTransit (s : State) : Bool := s.ports.any fun p => p.2.tmode != .none

/-- The partition changes: the ports advertise it, and the fences follow (R294). -/
def setPartition (part : Option Nat) (sealed : Bool) (s : State) : State :=
  recomputeFences (advertise part (s.modGlob fun g => { g with part := part, sealed_ := sealed }))

/-- GLOBAL.PARTITION (R410, R484). -/
def partitionWrite (v : Nat) (s : State) : State :=
  let id := bits v 5 0
  let sealed := bit v 7
  if s.glob.state == .configured then
    if bit v 8 then setPartition none false s else setPartition (some id) sealed s
  else if bit v 8 || s.glob.part != some id || (sealed && anyTransit s) then s
  else s.modGlob fun g => { g with sealed_ := sealed }

/-- GLOBAL.MGR_LIST_n (R485). -/
def mgrWrite (n v : Nat) (s : State) : State :=
  let node := bits v 11 0
  if bit v 12 && 143 < node / 16 then s
  else s.modGlob fun g => { g with mgrs := SMap.set MgrEntry.reset g.mgrs n { node := node, valid := bit v 12 } }

/-- States in which RO_TIMEOUT and FLAG_HOLD_TIMEOUT accept writes. -/
def beforeRunning (s : State) : Bool :=
  s.glob.state == .unconfigured || s.glob.state == .configured || s.glob.state == .assigned

/-- GLOBAL.PKG_STATE: REFUSED is cleared by a fabric manager's 1; a write of it with REQ zero makes no request (R409,
assumption 41). -/
def pkgWrite (fm : Bool) (v : Nat) (s : State) : State :=
  let clear := fm && bit v 9
  let s := if clear then s.modGlob fun g => { g with refused := false } else s
  let req := bits v 6 4
  if clear && req = 0 then s
  else
    match req with
    | 0 => pkgRequest fm .unconfigured s
    | 1 => pkgRequest fm .configured s
    | 2 => pkgRequest fm .assigned s
    | 3 => pkgRequest fm .running s
    | 4 => pkgRequest fm .draining s
    | 5 => pkgRequest fm .fenced s
    | 6 => pkgRequest fm .clearing s
    | _ => s.modGlob fun g => { g with refused := true }

/-- GLOBAL.MP_SUPERVISE: RESTARTED from any path, RESTART from the side-band alone (R422). -/
def superviseWrite (p : Path) (v : Nat) (s : State) : State :=
  let s := if bit v 44 then s.modMgmt fun m => { m with restarted := false } else s
  if bit v 43 && p == .sideband && s.sealCore.ready then restartMp 2 s else s

/-! ### Sillage (R272) -/

/-- Do the tables and the pool lie where R272 wants them? -/
def sillPlaced (l : Sillage) : Bool :=
  let pool := (l.first * pageBytes, (l.last + 1 - l.first) * pageBytes)
  let tables := [(l.cptBase * pageBytes, 32 * 2 ^ l.cptLog2), (l.pgtBase * pageBytes, if l.pgtLog2 = 0 then 0 else 256 * 2 ^ l.pgtLog2),
                 (l.wearBase * pageBytes, 32768)]
  let apart := fun (a b : Nat × Nat) => disjoint a.1 a.2 b.1 b.2
  tables.all (fun t => t.2 == 0 || (inTier0 t.1 t.2 && apart t pool)) && List.Pairwise (fun a b => apart a b = true) tables &&
  l.last < 393216 && l.low < l.high && l.high < l.last + 1 - l.first

/-- Park frames that parked pages hold as Sillage is enabled (R263). -/
def parkedFrames (s : State) : List (Nat × Nat) :=
  (List.range (cptSize s)).filterMap fun c =>
    let d := copyAt s c
    if cptFld s c 2 0 = pgParked && d.2 < parkCap s d.1 then some d else none

/-- GLOBAL.SILL_CTRL (R272). -/
def sillCtrlWrite (v : Nat) (s : State) : State :=
  let l := s.sill
  let new := { l with cluster := bits v 4 1, te := bits v 7 5, agePeriod := inRange 100 4000 (bits v 19 8) l.agePeriod,
                      low := bits v 39 20, high := bits v 59 40 }
  let s' := { s with sill := new }
  if bit v 0 && !l.en then
    if sillPlaced new then
      let s' := s'.modSill fun l => { l with en := true, frames := [], prefetch := [], evicting := false }
      s'.modSill fun l => { l with parkUsed := parkedFrames s' }
    else s'
  else if !bit v 0 && l.en && l.moves.isEmpty then s'.modSill fun l => { l with en := false, frames := [], prefetch := [] }
  else s'

/-- SILL_CPT, SILL_AUX and SILL_POOL, while EN is 0 (R272). -/
def sillCptWrite (v : Nat) (s : State) : State :=
  if s.sill.en then s
  else s.modSill fun l => { l with cptBase := bits v 21 0, cptLog2 := inRange 10 22 (bits v 26 22) l.cptLog2 }

def sillAuxWrite (v : Nat) (s : State) : State :=
  if s.sill.en then s
  else s.modSill fun l =>
    { l with pgtBase := bits v 21 0, pgtLog2 := inRange 0 20 (bits v 26 22) l.pgtLog2, wearBase := bits v 53 32,
             wearDelta := inRange 1 1023 (bits v 63 54) l.wearDelta }

def sillPoolWrite (v : Nat) (s : State) : State :=
  if s.sill.en || bits v 50 32 < bits v 18 0 then s
  else s.modSill fun l => { l with first := bits v 18 0, last := bits v 50 32 }

/-! ### HOSTIF (R41, R54, R355, R379, R381) -/

/-- HOSTIF.DAS_ROOT_n: an accepted write discards every cached translation of the DAS (R41). -/
def dasRootWrite (n v : Nat) (s : State) : State :=
  let root := bits v 42 21
  if !beforeRunning s || (bit v 0 && 0x60000 ≤ root) then s
  else
    let s := s.modGlob fun g =>
      { g with dasValid := SMap.set false g.dasValid n (bit v 0), dasRoot := SMap.set 0 g.dasRoot n root }
    let cluster := fun (cl : Cluster) => { cl with tlb := cl.tlb.filter fun t => t.das != n }
    { s with clusters := mapAll Cluster.reset cluster s.clusters }

/-- HOSTIF.ROLE_CFG (R379). -/
def roleCfgWrite (x v : Nat) (s : State) : State :=
  let s := s.modHost x fun h =>
    { h with allow := bit v 2, auto := bit v 3, hold := inRange 10 1000 (bits v 17 8) h.hold }
  if bit v 1 then writeTake x s else s

/-- A ring's host address field, and its size. -/
def ringBase (v : Nat) : Nat := fld 12 (bits v 63 12)
def ringSizeOk (log2 : Nat) : Bool := 4 ≤ log2 && log2 ≤ 16

/-- The fields of SQ_r other than EN and those the device keeps. -/
def Sq.fields (v : Nat) (q : Sq) : Sq :=
  { q with control := bit v 1, log2 := bits v 6 2, base := ringBase v, cluster := bits v 67 64, te := bits v 70 68,
           cq := bits v 79 72, das := bits v 83 80, pasidEn := bit v 84, pasid := bits v 104 85 }

/-- May a submission ring be enabled (R355, R449)? -/
def sqMay (s : State) (x : Nat) (q : Sq) : Bool :=
  ringSizeOk q.log2 && ((s.host x).cqAt q.cq).en && (q.control || bit s.boot.epbReady q.cluster)

/-- The lowest quadword of SQ_r. -/
def sqWrite (x r key v : Nat) (s : State) : State :=
  let q := (s.host x).sqAt r
  let new := q.fields (wideOf s key v (sqWord q) 1)
  let s := unstage key s
  if q.en then (if bit v 0 then s else s.modSq x r fun q => { q with en := false })
  else if !bit v 0 then s.modSq x r fun _ => new
  else if sqMay s x new then
    (s.modSq x r fun _ => { new with en := true, head := 0, tail := 0, stopped := false }).modHost x fun h =>
      { h with enables := h.enables + 1 }
  else s

/-- The fields of CQ_r other than EN and those the device keeps; COALESCE of 0 leaves the field. -/
def Cq.fields (v : Nat) (q : Cq) : Cq :=
  { q with log2 := bits v 5 1, base := ringBase v, vector := bits v 74 64, irqEn := bit v 75,
           coalesce := inRange 1 255 (bits v 83 76) q.coalesce, timer := bits v 95 84 }

/-- Does an enabled submission ring name the completion ring, or a command owe it a completion (R355)? -/
def cqBusy (s : State) (x r : Nat) : Bool :=
  ((s.host x).sq.any fun q => q.2.en && q.2.cq == r) || ((s.host x).cqAt r).owed != 0

/-- The lowest quadword of CQ_r. -/
def cqRegWrite (x r key v : Nat) (s : State) : State :=
  let q := (s.host x).cqAt r
  let new := q.fields (wideOf s key v (cqWord q) 1)
  let s := unstage key s
  if q.en then (if bit v 0 || cqBusy s x r then s else s.modCq x r fun q => { q with en := false })
  else if !bit v 0 then s.modCq x r fun _ => new
  else if ringSizeOk new.log2 then
    s.modCq x r fun _ => { new with en := true, head := 0, tail := 0, phase := true, unsig := 0 }
  else s

def Rq.fields (v : Nat) (q : Rq) : Rq :=
  { q with log2 := bits v 5 1, base := ringBase v, vector := bits v 74 64, irqEn := bit v 75 }

/-- The lowest quadword of EQ or FQ. -/
def rqRegWrite (fq : Bool) (x key v : Nat) (s : State) : State :=
  let q := (s.host x).rq fq
  let new := q.fields (wideOf s key v (rqWord q) 1)
  let s := unstage key s
  if q.en then (if bit v 0 then s else s.modRq fq x fun q => { q with en := false })
  else if !bit v 0 then s.modRq fq x fun _ => new
  else if ringSizeOk new.log2 then
    s.modRq fq x fun _ => { new with en := true, head := 0, tail := 0, phase := true, seq := 0 }
  else s

/-! ### POWER (R384, R389, R391, R396 to R398, R403) -/

/-- POWER.HEARTBEAT: a beat resets its manager's age, arms the orphan rule, and ends the orphaned state (R397). -/
def heartbeatWrite (v : Nat) (s : State) : State :=
  if !bit v 0 && !bit v 1 then s
  else
    let now := s.now
    s.modPower fun p =>
      { p with beat0 := if bit v 0 then 1 + now else p.beat0, beat1 := if bit v 1 then 1 + now else p.beat1, armed := true,
               orphan := false }

/-- POWER.EVENT: an event whose condition still holds recurs at once (R486). -/
def powerEventWrite (v : Nat) (s : State) : State :=
  s.modPower fun p =>
    { p with evCapUnmet := p.evCapUnmet && !bit v 0, evWarn := p.evWarn && !bit v 1,
             evOrphan := p.orphan || (p.evOrphan && !bit v 2), evThrottle := p.evThrottle && !bit v 3,
             evSwSlow := p.swSlow || (p.evSwSlow && !bit v 4),
             evHbmHot := (s.hbms.any fun h => h.2.hot) || (p.evHbmHot && !bit v 5) }

/-- POWER.BIAS_s (R389). -/
def biasWrite (i v : Nat) (s : State) : State :=
  if s.glob.state != .unconfigured || (4 ≤ bits v 3 0 && bits v 3 0 ≤ 7) || (4 ≤ bits v 7 4 && bits v 7 4 ≤ 7) then s
  else s.modPower fun p => { p with bias := SMap.set 0 p.bias i (bits v 16 0) }

/-! ### SWITCH -/

/-- May version `v` of the tables be written (R285)? -/
def versionOpen (s : State) (v : Nat) : Bool :=
  s.glob.state == .unconfigured || s.glob.state == .configured || (v != s.sw.epoch && s.sw.drained)

/-- SWITCH.ROUTE_v_s (R285). -/
def routeWrite (ver i v : Nat) (s : State) : State :=
  let e : RouteEntry :=
    { valid := bit v 0, dpos := bits v 8 1, adapt := bit v 9, expl := bit v 10, next := bits v 15 11, order := bits v 17 16 }
  let bad := e.valid && (144 ≤ i || 144 ≤ e.dpos || e.order == 3 || (e.expl && 22 ≤ e.next))
  if !versionOpen s ver || bad then s
  else s.modSw fun w => { w with routes := SMap.set RouteEntry.reset w.routes (256 * ver + i) e }

/-- The lowest quadword of SWITCH.MCAST_v_g (R285, R288, R480). -/
def mcastWrite (ver g key v : Nat) (s : State) : State :=
  let w := wideOf s key v (mcastWord (mcastAt s.sw ver g)) 1
  let s := unstage key s
  let e : McastEntry :=
    { valid := bit w 0, part := bits w 6 1, mcount := bits w 18 7, loc := bits w 34 19, root := bits w 56 35,
      row := bits w 85 64, col := bits w 107 86 }
  if !versionOpen s ver || (e.valid && (e.mcount == 0 || 2304 < e.mcount)) then s
  else s.modSw fun w => { w with mcast := SMap.set McastEntry.reset w.mcast (4096 * ver + g) e }

/-- SWITCH.EPOCH (R286). -/
def epochWrite (v : Nat) (s : State) : State :=
  if v % 2 = s.sw.epoch then s else s.modSw fun w => { w with epoch := v % 2, drained := false }

/-- SWITCH.GMIN_v (R302). -/
def gminWrite (v new : Nat) (s : State) : State :=
  let cells := bits new 10 0
  let sum := ((List.range 8).map fun i => if i = v then cells else SMap.get 0 s.sw.gmin i).foldl (· + ·) 0
  if s.glob.state != .unconfigured || cells < 17 || 1024 < cells || 65536 < 104 * sum then s
  else s.modSw fun w => { w with gmin := SMap.set 0 w.gmin v cells }

/-- SWITCH.TRANSIT_CFG (R316). -/
def transitCfgWrite (v : Nat) (s : State) : State :=
  let period := bits v 8 0
  let slots := bits v 22 16
  if anyTransit s || period < 16 || 256 < period || slots < 1 || period / 4 < slots then s
  else s.modSw fun w => { w with tperiod := period, tslots := slots }

/-- The parameters of a shaper or policer. -/
def bucketOf (w : Nat) : BucketCfg :=
  { en := bit w 0, cr := bits w 12 1, pr := bits w 27 16, cb := bits w 79 64, pb := bits w 95 80 }

/-- The check of R312, and the further one of R313. -/
def bucketOk (pol : Bool) (c : BucketCfg) : Bool :=
  !c.en || !(c.pr == 0 || c.pr < c.cr || c.pb < 17 || (0 < c.cr && c.cb < 17) || (pol && c.cr == 0))

/-- The lowest quadword of a shaper or policer: checked, it waits for the next 1 µs boundary (R312, R313). -/
def Bucket.write (pol : Bool) (w : Nat) (b : Bucket) : Bucket :=
  if bucketOk pol (bucketOf w) then { b with commit := some (bucketOf w) } else b

/-- The parameters that hold after the next boundary: those of an accepted write that waits for it, else those in force. -/
def Bucket.coming (b : Bucket) : BucketCfg := b.commit.getD b.cfg

def shapeWrite (o v key low : Nat) (s : State) : State :=
  let w := wideOf s key low (bucketWord (shaperAt s.sw o v).coming) 1
  (unstage key s).modSw fun x =>
    { x with shapers := SMap.upd Bucket.reset x.shapers (8 * o + v) (Bucket.write false w) }

def polWrite (i c key low : Nat) (s : State) : State :=
  let w := wideOf s key low (bucketWord (policerAt s.sw i c).coming) 1
  (unstage key s).modSw fun x =>
    { x with policers := SMap.upd Bucket.reset x.policers (2 * i + c) (Bucket.write true w) }

/-- A commit boundary: the buckets are brought up to date, and clipped to the new depths (R312). -/
def Bucket.commitNow (now : Nat) (b : Bucket) : Bucket :=
  match b.commit with
  | none => b
  | some c =>
    let b := b.fill now
    { b with cfg := c, commit := none, c := min b.c (c.cb * 1024 : Nat), p := min b.p (c.pb * 1024 : Nat) }

/-- SWITCH.MIRROR_CFG (R320). -/
def mirrorWrite (v : Nat) (s : State) : State :=
  let n := bits v 16 1
  let trunc := bits v 18 17
  let input := bits v 26 20
  if n = 0 || trunc = 3 || 103 < input then s
  else s.modSw fun w =>
    { w with matched := 0,
             mirror := { en := bit v 0, n := n, trunc := trunc, all := bit v 19, input := input, vcmask := bits v 34 27,
                         redOnly := bit v 35 } }

/-- SWITCH.EVENT (R298). -/
def swEventWrite (v : Nat) : State → State := State.modSw fun w =>
  { w with evNoRoute := w.evNoRoute && !bit v 0, evHopLimit := w.evHopLimit && !bit v 1, evPortDown := w.evPortDown && !bit v 2,
           evPortUp := w.evPortUp && !bit v 3, evWiring := w.evWiring && !bit v 4, evAge := w.evAge && !bit v 5 }

/-! ### PORT_n -/

/-- PORT_n.FENCE (R294). -/
def fenceWrite (n v : Nat) (s : State) : State := recomputeFence n (s.modPort n fun p => { p with force := bit v 0 })

/-- PORT_n.TRANSIT (R29, R295); packets queued under a grant it ends are discarded (R299). -/
def transitWrite (n v : Nat) (s : State) : State :=
  let part := bits v 7 2
  let out := bits v 14 8
  let put := fun m => flushTransit (s.modPort n fun p => { p with tmode := m, tpart := part, tout := out })
  if s.glob.sealed_ then s
  else match bits v 1 0 with
    | 0 => put .none
    | 1 => if 87 < out then s else wakeDomain switchDom (put .through)
    | 2 => if s.glob.part == some part then wakeDomain switchDom (put .edge) else s
    | _ => s

def portEventWrite (n v : Nat) : State → State := State.modPort n fun p =>
  { p with evDegrade := p.evDegrade && !bit v 0, evRestore := p.evRestore && !bit v 1, evMarginal := p.evMarginal && !bit v 2,
           evRetrainFail := p.evRetrainFail && !bit v 3 }

/-! ### EPB_e, XP_n, SEAL, SIDEBAND -/

/-- States in which a Lens descriptor is written as a register (R59). -/
def lensOpen (s : State) : Bool := s.glob.state == .unconfigured || s.glob.state == .configured

/-- The lowest quadword of LENS_w: WGEN stays, and VALID is set only under the descriptor rules (R58 to R60). A window a
register write changes loses its cached entries. -/
def lensWrite (x e w key low : Nat) (s : State) : State :=
  let old := LensDesc.at_w s e w
  let v := wideOf s key low (descVal old) 3
  let s := unstage key s
  if !lensOpen s then s
  else
    let d := { descOf v with wgen := old.wgen, valid := bit v 0 && descOk s v }
    s.modEpb e fun b =>
      { b with lens := SMap.set LensDesc.reset b.lens w d, byWrite := SMap.set 0 b.byWrite w (1 + x),
               cache := b.cache.filter fun c => c.window != w }

/-- XP_n.CONFIG (R251). -/
def xpConfigWrite (n v : Nat) (s : State) : State :=
  let tier := bits v 2 1
  let s' := s.modXp n fun x => { x with en := bit v 0, tier := tier, direct := bits v 28 16 }
  let total := fun t => ((filterBelow 4 fun m => (s'.xp m).tierOf m == t).map fun m => (s'.xp m).direct).foldl (· + ·) 0
  let ok := (s.glob.state == .unconfigured || s.glob.state == .configured) && parkedOn s n == 0 && 1 ≤ tier && tier ≤ 2 &&
    (s'.xp n).direct ≤ usableGib s' n && total 1 ≤ 512 && total 2 ≤ 4096
  if ok then s' else s

/-- SEAL.CLEAR_CFG, outside CLEARING: a method of 3 makes the write ignored whole (R437). -/
def clearCfgWrite (v : Nat) (s : State) : State :=
  let m := bits v 7 0
  if s.glob.state == .clearing || anyBelow 4 fun n => bits m (2 * n + 1) (2 * n) == 3 then s
  else s.modSeal fun k => { k with method := m, limitS := inRange 10 4000 (bits v 19 8) k.limitS }

/-- A mailbox's REQ, while it is not BUSY (R430). -/
def mboxReqWrite (m q v : Nat) : State → State := State.modMbox m fun b =>
  if b.busy then b else { b with req := patch (fitBytes 64 b.req) (8 * q) (leBytes 8 v) }

/-- SIDEBAND.ROLE: the named port takes the main role if its link is up; otherwise the write is counted (R462). -/
def roleWrite (v : Nat) (s : State) : State :=
  let x := v % 2
  if !bit v 1 then s
  else if (s.host x).linkUp then takeRole x false s
  else s.modSb fun b => { b with discard := cnt16 b.discard }

/-! ### Writes -/

/-- A write of one register quadword that a path may write. `key` is the staging key of the quadword. -/
def regPut (p : Path) (key : Nat) (r : Reg) (v : Nat) (s : State) : State :=
  let fm := p.isFm
  let x := match p with
    | .hp x => x.val
    | .sideband => 0
    | .mgmt _ => 0
    | .steward => 0
  match r with
  | .identity | .grade | .bistMap _ | .ready | .boot | .accessErr | .mgrReject | .replaySeq | .sillStatus => s
  | .position => positionWrite v s
  | .slot => slotWrite v s
  | .partition => partitionWrite v s
  | .mgrList n => mgrWrite n v s
  | .roTimeout =>
    if beforeRunning s then s.modGlob fun g => { g with roUs := inRange 10 1000 (bits v 9 0) g.roUs } else s
  | .flagHold =>
    if beforeRunning s then s.modGlob fun g => { g with holdUs := inRange 10 1000 (bits v 9 0) g.holdUs } else s
  | .replayOrder => replayOrder v s
  | .pkgState => if p == .steward then s.modGlob fun g => { g with refused := true } else pkgWrite fm v s
  | .mpSupervise => superviseWrite p v s
  | .sillCtrl => sillCtrlWrite v s
  | .sillCpt => sillCptWrite v s
  | .sillAux => sillAuxWrite v s
  | .sillPool => sillPoolWrite v s
  | .portStatus | .dbErr => s
  | .roleCfg => roleCfgWrite x v s
  | .priWait => s.modHost x fun h => { h with priMs := inRange 1 1000 (bits v 9 0) h.priMs }
  | .memap => s.modHost x fun h => { h with memEn := bit v 0, memBase := bits v 42 36 }
  | .rq fq q => match q with
    | 0 => rqRegWrite fq x key v s
    | 1 => if ((s.host x).rq fq).en then s else stage key v s
    | 2 => s.modRq fq x fun q => { q with dbRange := q.dbRange && !bit v 33, overflowed := q.overflowed && !bit v 34 }
    | _ => s
  | .dasRoot n => dasRootWrite n v s
  | .sq i q => match q with
    | 0 => sqWrite x i key v s
    | 1 => if ((s.host x).sqAt i).en then s else stage key v s
    | _ => s.modSq x i fun q => { q with dbRange := q.dbRange && !bit v 48 }
  | .cq i q => match q with
    | 0 => cqRegWrite x i key v s
    | 1 => if ((s.host x).cqAt i).en then s else stage key v s
    | _ => s.modCq x i fun q => { q with dbRange := q.dbRange && !bit v 33 }
  | .powerStatus => s
  | .capHost => lowerLimit (s.modPower fun p => { p with capHost := some (bits v 11 0) })
  | .capRack => lowerLimit (s.modPower fun p => { p with capRack := some (bits v 11 0) })
  | .warn => lowerLimit (s.modPower fun p => { p with warnCap := bits v 11 0, warnDuty := bits v 15 12 })
  | .orphan =>
    judgeOrphan (s.modPower fun p =>
      { p with orphanCap := bits v 11 0, silence := inRange 5 100 (bits v 18 12) p.silence })
  | .heartbeat => heartbeatWrite v s
  | .temp => s.modPower fun p => { p with throttleC := inRange 80 100 (bits v 31 24) p.throttleC }
  | .powerEvent => powerEventWrite v s
  | .hbmPark => s.modPower fun p => { p with hbmPark := bits v 11 0 }
  | .idleCfg => s.modPower fun p => { p with poolUs := inRange 1 1000 (bits v 9 0) p.poolUs }
  | .bias i => biasWrite i v s
  | .epoch => epochWrite v s
  | .routeCfg => s.modSw fun w => { w with fixed := bit v 0, detour := inRange 1 1023 (bits v 13 4) w.detour }
  | .swCount _ | .bufStatus | .mirrorSkip | .qsample _ _ | .cmap _ _ => s
  | .swEvent => swEventWrite v s
  | .gmin i => gminWrite i v s
  | .bufCfg =>
    s.modSw fun w => { w with inLimit := inRange 17 131072 (bits v 17 0) w.inLimit, yellowFloor := bits v 49 32 }
  | .audit => s.modSw fun w => { w with leakEv := w.leakEv && !bit v 62, conflictEv := w.conflictEv && !bit v 63 }
  | .transitCfg => transitCfgWrite v s
  | .qosCfg => s.modSw fun w => { w with idleUs := inRange 1 1000 (bits v 9 0) w.idleUs }
  | .sampleCfg => s.modSw fun w => { w with sampleUs := inRange 1 1000 (bits v 9 0) w.sampleUs }
  | .mirrorCfg => mirrorWrite v s
  | .cmapCfg => s.modSw fun w => { w with cmapUs := inRange 10 10000 (bits v 13 0) w.cmapUs }
  | .route ver i => routeWrite ver i v s
  | .mcast ver g q =>
    if q = 0 then mcastWrite ver g key v s else if versionOpen s ver then stage key v s else s
  | .pol i c q => if q = 0 then polWrite i c key v s else stage key v s
  | .shape o vc q => if q = 0 then shapeWrite o vc key v s else stage key v s
  | .portCtrl n => portCtrlWrite n v s
  | .portStat _ | .peerPos _ | .peerOff _ | .linkErr _ | .fenceDrop _ | .lane _ _ | .taps _ _ => s
  | .portEvent n => portEventWrite n v s
  | .fence n => fenceWrite n v s
  | .transit n => transitWrite n v s
  | .portTest n => portTestWrite n v s
  | .lens e w q => if q = 0 then lensWrite x e w key v s else if lensOpen s then stage key v s else s
  | .accordTimeout e => s.modEpb e fun b => { b with accordUs := inRange 100 100000 (bits v 16 0) b.accordUs }
  | .lateResp _ | .hdrDrop _ | .holdStatus _ | .holdFull _ | .broken _ | .collideStall _ | .accordStatus _ => s
  | .accordNotify e => s.modEpb e fun b => { b with notifyEn := bit v 0, notifyBase := bits v 23 13 }
  | .dasSelect c => s.modCluster c fun cl => { cl with dasSelect := bits v 3 0 }
  | .scopeCheck _ | .astat _ _ | .coreStop _ _ | .teFault _ _ _ => s
  | .scrub n => s.modHbm n fun h => { h with period := inRange 1 1000 (bits v 9 0) h.period }
  | .hbmErr _ | .xpStatus _ => s
  | .xpConfig n => xpConfigWrite n v s
  | .counter k snap u i => if snap then s else ovfWrite k u i v s
  | .cntUser => s.modCnt fun c => { c with user := bits v 15 0 }
  | .cntChain => chainWrite v s
  | .cntSnap => snapWrite v s
  | .cntClear => clearWrite v s
  | .snapTime _ | .sealStatus | .clear | .mboxRsp _ _ | .sbStatus => s
  | .clearCfg => clearCfgWrite v s
  | .mboxReq m q => mboxReqWrite m q v s
  | .mboxCtrl m => if bit v 0 then mboxGo m s else s
  | .sbRole => roleWrite v s
  | .sbSnap => snapWrite v s

end Sys2Proof.Machine
end

