-- ==== Sys2Proof/Machine/RegOps.lean ====
section
/-! DEFINITION. Accesses to the setup aperture by its three paths: holes, readiness, reach, whole quadwords, and the
MSI-X table (17, R450, R458; 19, R478 to R482). -/
namespace Sys2Proof.Machine

/-! ### Who may reach the aperture -/

/-- SOURCE of GLOBAL.ACCESS_ERR; steward has no code of its own (assumption 81). -/
def Path.source : Path → Nat
  | .hp x => x
  | .sideband => 2
  | .mgmt _ => 3
  | .steward => 3

/-- Count an access to a hole, or a partial write (R478, R479). -/
def noteAccess (p : Path) (a : Nat) (write : Bool) : State → State := State.modGlob fun g =>
  { g with accessErr := { count := cnt32 g.accessErr.count, addr := a, source := p.source, write := write } }

/-- Count an access to a unit that is not ready (R450). -/
def noteEarly : State → State := State.modBoot fun b => { b with early := cnt16 b.early }

/-- Does the management function of the package take packets at all (R19)? -/
def mgmtLives (s : State) : Bool := s.sw.ready && s.placed

/-- Can the path reach the registers: a host port that is up, the side-band target out of reset, a manager on the list, or
steward while it runs? -/
def pathOpen (s : State) (p : Path) : Bool :=
  match p with
  | .hp x => hostCan s x
  | .sideband => s.boot.out
  | .mgmt n => mgmtLives s && onList s n.toNat
  | .steward => s.mgmt.up

/-- A management packet from a node that is not on the list is counted (R33). -/
def pathNote (p : Path) (s : State) : State :=
  match p with
  | .hp _ => s
  | .sideband => s
  | .mgmt n =>
    if mgmtLives s && !onList s n.toNat then s.modGlob fun g => { g with mgrReject := cnt32 g.mgrReject } else s
  | .steward => s

/-- A write that a fence around the seal core refuses is counted in SEAL.STATUS.BLOCKED (R425, R435). -/
def noteBlocked (p : Path) (r : Reg) (s : State) : State :=
  if p == .steward && stewardFence r then s.modSeal fun k => { k with blocked := cnt16 k.blocked } else s

/-! ### Quadwords -/

/-- HOSTIF's MSI-X table and array follow the PCIe rules instead (R353, R478). -/
def isMsix (a : Nat) : Bool := 0x100000 ≤ a && inMsix (a - 0x100000)

/-- The staging key of a quadword: HOSTIF has a copy per port. -/
def stageKey (p : Path) (a : Nat) : Nat :=
  match p with
  | .hp x => if 0x100000 ≤ a && a < 0x400000 then a + (x + 1) * 2 ^ 26 else a
  | .sideband => a
  | .mgmt _ => a
  | .steward => a

/-- Read one aligned quadword: none where the path does not reach it (R458), else its value and the state after. -/
def quadRead (p : Path) (a : Nat) (s : State) : Option (Nat × State) :=
  match regAt a with
  | none => if p.isFm && !wholeReach a then none else some (0, noteAccess p a false s)
  | some r =>
    let x := match p with
      | .hp x => x.val
      | .sideband => 0
      | .mgmt _ => 0
      | .steward => 0
    match regAccess p r with
    | .none => none
    | .zero => some (0, if regReady s r then s else noteEarly s)
    | .readOnly => some (if regReady s r then regValue x r s else (0, noteEarly s))
    | .rw => some (if regReady s r then regValue x r s else (0, noteEarly s))

/-- Write one aligned quadword: none where the path does not reach it. -/
def quadWrite (p : Path) (a v : Nat) (s : State) : Option State :=
  match regAt a with
  | none => if p.isFm && !wholeReach a then none else some (noteAccess p a true s)
  | some r =>
    match regAccess p r with
    | .none => none
    | .zero => some (if regReady s r then noteBlocked p r s else noteEarly s)
    | .readOnly => some (if regReady s r then noteBlocked p r s else noteEarly s)
    | .rw => some (if regReady s r then regPut p (stageKey p a) r v s else noteEarly s)

/-- One write of a register by a path, as a command of its own. -/
def regWrite (p : Path) (a v : Nat) (s : State) : State :=
  if pathOpen s p then (quadWrite p a v s).getD s else pathNote p s

/-- Read `n` quadwords upwards; it ends early where the path's reach does, and the flag says so. -/
def quadsRead (p : Path) : Nat → Nat → State → List Byte × Bool × State
  | 0, _, s => ([], true, s)
  | n + 1, a, s =>
    match quadRead p a s with
    | none => ([], false, s)
    | some (v, s) =>
      let r := quadsRead p n (a + 8) s
      (leBytes 8 v ++ r.1, r.2)

/-- Write quadwords upwards, until one is out of the path's reach. -/
def quadsWrite (p : Path) : Nat → Nat → List Byte → State → Bool × State
  | 0, _, _, s => (true, s)
  | n + 1, a, bs, s =>
    match quadWrite p a (leAt bs 0 8) s with
    | none => (false, s)
    | some s => quadsWrite p n (a + 8) (bs.drop 8) s

/-! ### Host accesses of any size (R478) -/

/-- Bytes of the aperture. -/
def apertureBytes : Nat := 2 ^ 26

/-- A write: whole quadwords are applied upwards, and one that covers part of a quadword is discarded and counted. -/
def spanWrite (p : Path) (a : Nat) (data : List Byte) (s : State) : State :=
  let bs := data.take (apertureBytes - a)
  let n := bs.length
  if n = 0 then s
  else if isMsix a && !p.isFm then
    match p with
    | .hp x => msixWrite x (a - 0x100000) bs s
    | .sideband => s
    | .mgmt _ => s
    | .steward => s
  else if a % 8 != 0 || n % 8 != 0 then noteAccess p a true s
  else (quadsWrite p (n / 8) a bs s).2

/-- A read of some bytes: the quadwords that hold them are read upwards. -/
def spanRead (p : Path) (a len : Nat) (s : State) : State :=
  let n := min len (apertureBytes - a)
  if n = 0 then s
  else if isMsix a && !p.isFm then
    match p with
    | .hp x => s.emit (.regData p a ((List.range n).map fun i => msixByte (s.host x) (a - 0x100000 + i)))
    | .sideband => s
    | .mgmt _ => s
    | .steward => s
  else
    let r := quadsRead p ((a % 8 + n + 7) / 8) (a / 8 * 8) s
    r.2.2.emit (.regData p a ((r.1.drop (a % 8)).take n))

/-! ### Management packets (R33, R105) -/

/-- The oldest packet of the management function with this code: it leaves the queue, and a packet that waited for space
takes its place (R284). -/
def takeMgmt (op : Nat) (s : State) : Option (MgmtPkt × State) :=
  (takeFirst (fun m => m.pkt.hdr.op.toNat == op) s.mgmt.rx).map fun r =>
    (r.1, mgmtAccept (s.modMgmt fun m => { m with rx := r.2 }))

/-- The fields every management packet leaves zero (R105). -/
def mgmtZeros (h : Header) : Bool :=
  h.part == 0 && h.wgen == 0 && h.step == 0 && h.level == 0 && h.index == 0 && h.f == 0 && h.cnt == 0 && h.stag == 0 &&
  h.attr == 0 && h.dnode.toNat % 16 == 0 && h.rsv0 == 0 && h.rsv1 == 0

/-- The OFFSET rule of a register access (R105, assumption 86). -/
def mgmtOffset (h : Header) : Bool := h.offset.toNat < apertureBytes && h.offset.toNat % 8 == 0

/-- The rules of each request (R105). -/
def mgmtForm (p : Packet) : Bool :=
  let h := p.hdr
  let op := h.op.toNat
  mgmtZeros h &&
  (if op = opMgmtRead then h.len == 0 && mgmtOffset h
   else if op = opMgmtWrite then h.len == 1 && mgmtOffset h && allZero (p.payload.drop 8)
   else h.offset == 0 && 1 ≤ h.len.toNat && h.len.toNat ≤ 256)

/-- Answer a management request. -/
def mgmtAnswer (h : Header) (st : Nat) (payload : List Byte) : State → State := switchSend (respond h st 0 payload)

/-- The checks every management request passes: the list as it stood at its arrival, its form, its trailer. -/
def mgmtVerdict (m : MgmtPkt) : Option Nat :=
  if !m.listed then some stPermission
  else if !mgmtForm m.pkt then some stMalformed
  else if !m.pkt.trailerOk then some stCheckFailed
  else none

/-- A management packet is refused because of its sender (R33). -/
def noteReject : State → State := State.modGlob fun g => { g with mgrReject := cnt32 g.mgrReject }

/-- Serve a management request that is next, by what it does once checked. -/
def serveMgmt (op : Nat) (act : Packet → State → State) (s : State) : State :=
  match takeMgmt op s with
  | none => s
  | some (m, s) =>
    match mgmtVerdict m with
    | some st => mgmtAnswer m.pkt.hdr st [] (if st = stPermission then noteReject s else s)
    | none => act m.pkt s

/-- A response to a management request of this package is handed to the management processor, if steward is up. -/
def takeAnswer (op : Nat) (s : State) : State :=
  match takeMgmt (op + 0x80) s with
  | none => s
  | some (p, s) => if s.mgmt.up then s.modMgmt fun m => { m with answers := m.answers ++ [p.pkt] } else s

end Sys2Proof.Machine
end

