-- ==== Sys2Proof/Machine/RegCmds.lean ====
section
/-! DEFINITION. Commands that write and read setup registers, request package states, and take and answer management packets
(03, 10, 11, 15, 19). -/
namespace Sys2Proof.Machine

/-! ### GLOBAL -/

/-- POSITION_WRITE (R18). -/
def execPositionWrite (p : Path) (v : Quad) (s : State) : Out := .next (regWrite p 0x10 v.toNat s)

/-- SLOT_WRITE (R18). -/
def execSlotWrite (p : Path) (v : Quad) (s : State) : Out := .next (regWrite p 0x18 v.toNat s)

/-- PARTITION_WRITE (R484). -/
def execPartitionWrite (p : Path) (v : Quad) (s : State) : Out := .next (regWrite p 0x20 v.toNat s)

/-- MGR_LIST_WRITE (R485). -/
def execMgrListWrite (p : Path) (n : Fin 8) (v : Quad) (s : State) : Out := .next (regWrite p (0x200 + 8 * n) v.toNat s)

/-- SILL_CTRL_WRITE (R272). -/
def execSillCtrlWrite (p : Path) (v : Quad) (s : State) : Out := .next (regWrite p 0x800 v.toNat s)

/-- SILL_CONFIG_WRITE: SILL_CPT, SILL_AUX or SILL_POOL (R272). -/
def execSillConfigWrite (p : Path) (r : Fin 3) (v : Quad) (s : State) : Out :=
  .next (regWrite p (0x808 + 8 * r) v.toNat s)

/-- REPLAY_ORDER (R243). -/
def execReplayOrder (p : Path) (v : Quad) (s : State) : Out := .next (regWrite p 0x500 v.toNat s)

/-- A write of PKG_STATE.REQ (R409). -/
def reqWrite (p : Path) (new : PkgState) (s : State) : State := regWrite p 0x600 (fld 4 new.code) s

/-- REQ_CONFIGURED. -/
def execReqConfigured (p : Path) (s : State) : Out := .next (reqWrite p .configured s)

/-- REQ_ASSIGNED. -/
def execReqAssigned (p : Path) (s : State) : Out := .next (reqWrite p .assigned s)

/-- REQ_RUNNING. -/
def execReqRunning (p : Path) (s : State) : Out := .next (reqWrite p .running s)

/-- REQ_DRAINING. -/
def execReqDraining (p : Path) (s : State) : Out := .next (reqWrite p .draining s)

/-- REQ_FENCED (R411). -/
def execReqFenced (p : Path) (s : State) : Out := .next (reqWrite p .fenced s)

/-- REQ_CLEARING (R437). -/
def execReqClearing (p : Path) (s : State) : Out := .next (reqWrite p .clearing s)

/-! ### HOSTIF, through a port's own aperture -/

/-- DAS_ROOT_WRITE (R41). -/
def execDasRootWrite (x : Fin 2) (n : Fin 16) (v : Quad) (s : State) : Out :=
  .next (regWrite (.hp x) (0x101000 + 8 * n) v.toNat s)

/-- The lowest quadword of a ring register (R355). -/
def ringAddr : RingReg → Nat
  | .sq r => 0x110000 + 0x20 * r
  | .cq r => 0x120000 + 0x20 * r
  | .eq => 0x100100
  | .fq => 0x100120

/-- RING_ENABLE: the lowest quadword with EN = 1 (R355). -/
def execRingEnable (x : Fin 2) (r : RingReg) (v : Quad) (s : State) : Out :=
  .next (regWrite (.hp x) (ringAddr r) (v.toNat / 2 * 2 + 1) s)

/-- RING_DISABLE: the lowest quadword with EN = 0 (R355). -/
def execRingDisable (x : Fin 2) (r : RingReg) (v : Quad) (s : State) : Out :=
  .next (regWrite (.hp x) (ringAddr r) (v.toNat / 2 * 2) s)

/-- TAKE: ROLE_CFG.TAKE with the other fields as they stand (R379). -/
def execTake (x : Fin 2) (s : State) : Out :=
  .next (regWrite (.hp x) 0x100008 (roleWord (s.host x) + 2) s)

/-! ### POWER -/

/-- CAP_HOST_WRITE (R391). -/
def execCapHostWrite (p : Path) (v : Quad) (s : State) : Out := .next (regWrite p 0x400008 v.toNat s)

/-- CAP_RACK_WRITE (R391). -/
def execCapRackWrite (p : Path) (v : Quad) (s : State) : Out := .next (regWrite p 0x400010 v.toNat s)

/-- WARN_WRITE (R391, R396). -/
def execWarnWrite (p : Path) (v : Quad) (s : State) : Out := .next (regWrite p 0x400018 v.toNat s)

/-- ORPHAN_WRITE (R391, R397). -/
def execOrphanWrite (p : Path) (v : Quad) (s : State) : Out := .next (regWrite p 0x400020 v.toNat s)

/-- HEARTBEAT (R397). -/
def execHeartbeat (p : Path) (v : Quad) (s : State) : Out := .next (regWrite p 0x400028 v.toNat s)

/-- BIAS_WRITE (R389). -/
def execBiasWrite (p : Path) (n : Fin 4) (v : Quad) (s : State) : Out := .next (regWrite p (0x400100 + 8 * n) v.toNat s)

/-! ### SWITCH -/

/-- ROUTE_WRITE (R285). -/
def execRouteWrite (p : Path) (ver : Fin 2) (slot : Fin 256) (v : Quad) (s : State) : Out :=
  .next (regWrite p (0x810000 + 0x800 * ver + 8 * slot) v.toNat s)

/-- MCAST_WRITE: one quadword of an entry (R288, R480). -/
def execMcastWrite (p : Path) (ver : Fin 2) (g : Fin 4096) (q : Fin 2) (v : Quad) (s : State) : Out :=
  .next (regWrite p (0x820000 + 0x10000 * ver + 16 * g + 8 * q) v.toNat s)

/-- EPOCH_WRITE (R286). -/
def execEpochWrite (p : Path) (v : Quad) (s : State) : Out := .next (regWrite p 0x800000 v.toNat s)

/-- EPOCH_DRAIN_EXPIRY: 1,020 µs after the last change of CURRENT (R286). -/
def execEpochDrainExpiry (s : State) : Out := .next (s.modSw fun w => { w with drained := true })

/-- GMIN_WRITE (R302). -/
def execGminWrite (p : Path) (vc : Fin 8) (v : Quad) (s : State) : Out := .next (regWrite p (0x800100 + 8 * vc) v.toNat s)

/-- TRANSIT_CFG_WRITE (R316). -/
def execTransitCfgWrite (p : Path) (v : Quad) (s : State) : Out := .next (regWrite p 0x800158 v.toNat s)

/-- MIRROR_CFG_WRITE (R320). -/
def execMirrorCfgWrite (p : Path) (v : Quad) (s : State) : Out := .next (regWrite p 0x800170 v.toNat s)

/-- SHAPE_WRITE: one quadword of a shaper of VC1 to VC6 (R312). -/
def execShapeWrite (p : Path) (o : Fin 104) (vc : Fin 6) (q : Fin 2) (v : Quad) (s : State) : Out :=
  .next (regWrite p (0x850000 + 0x80 * o + 0x10 * vc + 8 * q) v.toNat s)

/-- SHAPER_COMMIT: the next 1 µs boundary (R312). -/
def execShaperCommit (o : Fin 104) (vc : Fin 6) (s : State) : Out :=
  .next (s.modSw fun w =>
    { w with shapers := SMap.upd Bucket.reset w.shapers (8 * o + (vc + 1)) (Bucket.commitNow s.now) })

/-- POL_WRITE: one quadword of a policer (R313). -/
def execPolWrite (p : Path) (i : Fin 104) (c : Fin 2) (q : Fin 2) (v : Quad) (s : State) : Out :=
  .next (regWrite p (0x840000 + 0x20 * i + 0x10 * c + 8 * q) v.toNat s)

/-- POLICER_COMMIT (R312, R313). -/
def execPolicerCommit (i : Fin 104) (c : Fin 2) (s : State) : Out :=
  .next (s.modSw fun w => { w with policers := SMap.upd Bucket.reset w.policers (2 * i + c) (Bucket.commitNow s.now) })

/-! ### PORT_n -/

def portAddr (n : Nat) : Nat := 0x1000000 + 0x10000 * n

/-- FENCE_WRITE (R294). -/
def execFenceWrite (p : Path) (n : Fin 88) (v : Quad) (s : State) : Out := .next (regWrite p (portAddr n + 0x100) v.toNat s)

/-- TRANSIT_WRITE (R295). -/
def execTransitWrite (p : Path) (n : Fin 88) (v : Quad) (s : State) : Out :=
  .next (regWrite p (portAddr n + 0x108) v.toNat s)

/-- RETRAIN: CTRL.RETRAIN with the other fields as they stand (R337). -/
def execRetrain (p : Path) (n : Fin 88) (s : State) : Out :=
  .next (regWrite p (portAddr n) (portCtrlWord (s.port n) + fld 8 1) s)

/-- PORT_EN: CTRL.EN with the other fields as they stand (R337). -/
def execPortEn (p : Path) (n : Fin 88) (on : Bool) (s : State) : Out :=
  .next (regWrite p (portAddr n) (portCtrlWord { s.port n with en := on }) s)

/-- LOOP: CTRL.LOOP with the other fields as they stand (R347). -/
def execLoop (p : Path) (n : Fin 88) (mode : Fin 4) (s : State) : Out :=
  .next (regWrite p (portAddr n) (portCtrlWord { s.port n with loop := mode }) s)

/-- TEST_PATTERN: PORT_n.TEST (R348). -/
def execTestPattern (p : Path) (n : Fin 88) (v : Quad) (s : State) : Out :=
  .next (regWrite p (portAddr n + 0x300) v.toNat s)

/-! ### EPB_e, XP_n -/

/-- LENS_DESCRIPTOR_WRITE: one quadword of a descriptor (R59, R60). -/
def execLensDescriptorWrite (x : Fin 2) (e : Fin 16) (w : Fin 4096) (q : Fin 4) (v : Quad) (s : State) : Out :=
  .next (regWrite (.hp x) (0x1800000 + 0x40000 * e + 0x20 * w + 8 * q) v.toNat s)

/-- XP_CONFIG_WRITE (R251). -/
def execXpConfigWrite (x : Fin 2) (n : Fin 4) (v : Quad) (s : State) : Out :=
  .next (regWrite (.hp x) (0x2600008 + 0x10000 * n) v.toNat s)

/-! ### COUNTERS, SIDEBAND -/

/-- CHAIN_WRITE (R467, R472). -/
def execChainWrite (p : Path) (v : Quad) (s : State) : Out := .next (regWrite p 0x2C00008 v.toNat s)

/-- COUNTERS_CLEAR_CORE (R472). -/
def execCountersClearCore (p : Path) (s : State) : Out := .next (regWrite p 0x2C00018 1 s)

/-- COUNTERS_CLEAR_EPB (R472). -/
def execCountersClearEpb (p : Path) (s : State) : Out := .next (regWrite p 0x2C00018 2 s)

/-- COUNTERS_CLEAR_HBM (R472). -/
def execCountersClearHbm (p : Path) (s : State) : Out := .next (regWrite p 0x2C00018 4 s)

/-- SNAP: COUNTERS.SNAP from a host, SIDEBAND.SNAP from the fabric manager (R473). -/
def execSnap (p : Path) (islands : BitVec 4) (s : State) : Out :=
  .next (regWrite p (if p.isFm then 0x3800010 else 0x2C00010) islands.toNat s)

/-- SNAPSHOT_ISLAND_COPY: the strobe reaches an island (R473). -/
def execSnapshotIslandCopy (i : Fin 4) (s : State) : Out := .next (islandCopy i s)

/-- SNAPSHOT_COMPLETE (R473). -/
def execSnapshotComplete (s : State) : Out := .next (snapDone s)

/-- ROLE: SIDEBAND.ROLE with GO (R462). -/
def execRole (p : Path) (x : Fin 2) (s : State) : Out := .next (regWrite p 0x3800008 (x + 2) s)

/-! ### Any register -/

/-- REGISTER_WRITE: a write of some bytes (R478). -/
def execRegisterWrite (p : Path) (addr : BitVec 26) (data : List Byte) (s : State) : Out :=
  if pathOpen s p then .next (spanWrite p addr.toNat data s) else .next (pathNote p s)

/-- RC_READ: a read of some bytes, whose RC fields are cleared (R13, R478). -/
def execRcRead (p : Path) (addr : BitVec 26) (len : Nat) (s : State) : Out :=
  if pathOpen s p then .next (spanRead p addr.toNat len s) else .next (pathNote p s)

/-! ### Management packets (R33, R105) -/

/-- MGMT_READ: a setup register is read and answered on VC0. -/
def execMgmtRead (s : State) : Out :=
  .next (serveMgmt opMgmtRead (fun p s =>
    match quadRead (.mgmt p.hdr.snode) p.hdr.offset.toNat s with
    | none => mgmtAnswer p.hdr stPermission [] s
    | some (v, s) => mgmtAnswer p.hdr stOk (leBytes 8 v ++ zeros 8) s) s)

/-- MGMT_WRITE: a setup register is written and the write acknowledged. -/
def execMgmtWrite (s : State) : Out :=
  .next (serveMgmt opMgmtWrite (fun p s =>
    match quadWrite (.mgmt p.hdr.snode) p.hdr.offset.toNat (leAt p.payload 0 8) s with
    | none => mgmtAnswer p.hdr stPermission [] s
    | some s => mgmtAnswer p.hdr stOk [] s) s)

/-- MGMT_MSG: the payload goes into the inbox; a full inbox, and a management processor that is not up, answer HOLD_FULL
(R105, R424). -/
def execMgmtMsg (s : State) : Out :=
  .next (serveMgmt opMgmtMsg (fun p s =>
    if !s.mgmt.up || Config.inboxSize ≤ s.mgmt.inbox.length then mgmtAnswer p.hdr stHoldFull [] s
    else mgmtAnswer p.hdr stOk [] (s.modMgmt fun m => { m with inbox := m.inbox ++ [p.payload] })) s)

/-- MGMT_READ_RESP. -/
def execMgmtReadResp (s : State) : Out := .next (takeAnswer opMgmtRead s)

/-- MGMT_WRITE_ACK. -/
def execMgmtWriteAck (s : State) : Out := .next (takeAnswer opMgmtWrite s)

/-- MGMT_MSG_ACK. -/
def execMgmtMsgAck (s : State) : Out := .next (takeAnswer opMgmtMsg s)

end Sys2Proof.Machine
end

