-- ==== Sys2Proof/Machine/SbOps.lean ====
section
/-! DEFINITION. The side-band port: MCTP messages, register access, image delivery, PLDM and SPDM (17, R455 to R462). -/
namespace Sys2Proof.Machine

/-! ### Messages (R455 to R457) -/

/-- The target takes a message only out of reset (R446). -/
def onTarget (f : State → State) (s : State) : Out := .next (if s.boot.out then f s else s)

/-- A message is discarded and counted (R456). -/
def sbDiscard : State → State := State.modSb fun b => { b with discard := cnt16 b.discard }

/-- Largest message the device reassembles, in bytes. -/
def mctpMax : Nat := 1024

def cmdRead : Nat := 0x01
def cmdWrite : Nat := 0x02
def cmdImageBegin : Nat := 0x10
def cmdImageData : Nat := 0x11
def cmdImageEnd : Nat := 0x12

/-- The response to a vendor-defined message (R457). -/
def vendorReply (cmd : Nat) (tag count : Byte) (addr st : Nat) (data : List Byte) : State → State :=
  State.emit (.mctp (([0x7E] ++ leBytes 2 Config.pciVendor.toNat ++ leBytes 1 cmd ++ [tag] ++ leBytes 1 st ++ [count, 0]
    ++ leBytes 8 addr) ++ data))

/-! ### Register access (R458, R459) -/

/-- The checks a READ or WRITE passes before any quadword; `zeros` are bytes 5 and 7 of the request, which are zero (R12,
R457, R458). -/
def sbVerdict (zeros : BitVec 16) (count addr : Nat) : Option Nat :=
  if zeros != 0 then some stMalformed
  else if apertureBytes ≤ addr then some stBounds
  else if addr % 8 != 0 || count = 0 || 64 < count then some stMalformed
  else none

/-- The quadwords of an access that lie in the aperture; those past its end complete BOUNDS. -/
def sbInside (count addr : Nat) : Nat := min count ((apertureBytes - addr) / 8)

/-- The status of an access whose quadwords were all within reach, or not. -/
def sbStatus (ok : Bool) (count addr : Nat) : Nat :=
  if !ok then stPermission else if sbInside count addr < count then stBounds else stOk

def sbRead (tag : Byte) (zeros : BitVec 16) (count : Byte) (addr : Nat) (s : State) : State :=
  match sbVerdict zeros count.toNat addr with
  | some st => vendorReply cmdRead tag count addr st [] s
  | none =>
    let r := quadsRead .sideband (sbInside count.toNat addr) addr s
    let st := sbStatus r.2.1 count.toNat addr
    vendorReply cmdRead tag count addr st (if st = stOk then r.1 else []) r.2.2

def sbWrite (tag : Byte) (zeros : BitVec 16) (count : Byte) (addr : Nat) (data : List Byte) (s : State) : State :=
  match sbVerdict zeros count.toNat addr with
  | some st => vendorReply cmdWrite tag count addr st [] s
  | none =>
    let r := quadsWrite .sideband (sbInside count.toNat addr) addr (fitBytes (8 * count.toNat) data) s
    vendorReply cmdWrite tag count addr (sbStatus r.1 count.toNat addr) [] r.2

/-! ### Image delivery (R448, R458) -/

/-- Largest image: the seal firmware with its identity record, and steward. -/
def imageMax (steward : Bool) : Nat := if steward then 16 * 2 ^ 20 else 160 * 1024

/-- Does the image's consumer wait for it? -/
def imageWanted (s : State) (steward : Bool) : Bool :=
  if steward then s.sealCore.ready && !s.mgmt.up else s.boot.state == 0 || s.boot.state == 1

/-- IMAGE_BEGIN; one for the seal firmware while the ROM reads the flash makes it wait for side-band images. -/
def imageBegin (tag : Byte) (zeros : BitVec 16) (image : Byte) (total : Nat) (s : State) : State :=
  let steward := image == 1
  let reply := fun st => vendorReply cmdImageBegin tag image total st []
  if zeros != 0 || 1 < image.toNat then reply stMalformed s
  else if !imageWanted s steward then reply stStateReject s
  else if imageMax steward < total then reply stBounds s
  else
    let s := s.modSb fun b => { b with delivery := some { steward := steward, total := total, bytes := [] } }
    reply stOk (if steward then s else s.modBoot fun b => { b with state := 1 })

/-- IMAGE_DATA: contiguous, or the image is abandoned. -/
def imageData (tag : Byte) (zeros : BitVec 16) (off : Nat) (data : List Byte) (s : State) : State :=
  let reply := fun st => vendorReply cmdImageData tag 0 off st []
  if mctpMax < data.length + 16 then sbDiscard s
  else if zeros != 0 then reply stMalformed s
  else
    match s.sb.delivery with
    | none => reply stMalformed s
    | some d =>
      if off != d.bytes.length || data.length < 16 || d.total < off + data.length then
        reply stMalformed (s.modSb fun b => { b with delivery := none })
      else reply stOk (s.modSb fun b => { b with delivery := some { d with bytes := d.bytes ++ data } })

/-- A delivered image that verifies: the seal firmware runs, or steward's image is ready to be released. -/
def imageTaken (steward : Bool) (i : Image) (s : State) : State :=
  if steward then
    s.modSeal fun k => { k with stewardImage := { digest := fitBytes 64 i.digest, svn := i.svn % 2 ^ 32 } }
  else sealRuns i (s.modBoot fun b => { b with source := true })

/-- A delivered image that fails: it is not run. -/
def imageFailed (steward : Bool) (s : State) : State :=
  if steward && s.boot.state == 2 && !s.mgmt.restarting then s.modBoot fun b => { b with state := 4 } else s

/-- IMAGE_END: a whole image is verified; `image` is what the verifier finds in it (R428). -/
def imageEnd (tag : Byte) (zeros : BitVec 16) (image : Option Image) (s : State) : State :=
  let reply := fun st => vendorReply cmdImageEnd tag 0 0 st []
  if zeros != 0 then reply stMalformed s else
  match s.sb.delivery with
  | none => reply stCheckFailed s
  | some d =>
    let s := s.modSb fun b => { b with delivery := none }
    if !imageWanted s d.steward then reply stStateReject s
    else
      match (if d.bytes.length = d.total then image else none) with
      | none => reply stCheckFailed (imageFailed d.steward s)
      | some i => reply stOk (imageTaken d.steward i s)

/-! ### MCTP control (R456) -/

/-- Set Endpoint ID, as the MCTP base specification lays it out (assumption 44). -/
def setsEid (msg : List Byte) : Option Nat :=
  if leAt msg 2 1 = 1 && leAt msg 3 1 % 4 < 2 && 8 ≤ leAt msg 4 1 && leAt msg 4 1 < 255 then some (leAt msg 4 1) else none

def mctpControl (msg : List Byte) (s : State) : State :=
  if mctpMax < msg.length || leAt msg 0 1 != 0 then sbDiscard s
  else
    let s := match setsEid msg with
      | none => s
      | some e => s.modSb fun b => { b with eid := e }
    s.emit (.mctp (0 :: Config.mctpControlBody msg))

/-! ### PLDM (R456, R460) -/

def pldmNotReady : Nat := 0x04
def pldmBadSensor : Nat := 0x80

/-- A PLDM response: message type, header, completion code and data (assumption 44). -/
def pldmReply (type cmd cc : Nat) (data : List Byte) : State → State :=
  State.emit (.mctp (leBytes 1 0x01 ++ leBytes 1 0 ++ leBytes 1 type ++ leBytes 1 cmd ++ leBytes 1 cc ++ data))

/-- Steward answers a PLDM request, or hardware does while steward is not up. -/
def pldmServe (type cmd : Nat) (f : State → State) (s : State) : State :=
  if s.mgmt.up then f s else pldmReply type cmd pldmNotReady [] s

/-- Place of a sensor in the refreshed values, and whether it is numeric. -/
def PldmSensor.place : PldmSensor → Nat × Bool
  | .tjMax => (0, true)
  | .hbmMax => (1, true)
  | .power => (2, true)
  | .limit => (3, true)
  | .clearPercent => (4, true)
  | .pkgState => (5, false)
  | .capUnmet => (6, false)
  | .throttle => (7, false)
  | .clearPhase => (8, false)

/-- A sensor's value as last refreshed. -/
def sensorValue (s : State) (x : PldmSensor) : Nat := s.mgmt.sensors.getD (PldmSensor.place x).1 0

def numericReading (x : PldmSensor) (s : State) : State :=
  if (PldmSensor.place x).2 then pldmReply 2 0x11 0 (Config.pldmNumericHead ++ leBytes 4 (sensorValue s x)) s
  else pldmReply 2 0x11 pldmBadSensor [] s

def stateReading (x : PldmSensor) (s : State) : State :=
  if (PldmSensor.place x).2 then pldmReply 2 0x21 pldmBadSensor [] s
  else pldmReply 2 0x21 0 (Config.pldmStateHead ++ leBytes 1 (sensorValue s x)) s

/-! ### SPDM (R456, R461) -/

def spdmBusy : Nat := 0x03
def spdmUnspecified : Nat := 0x05
def spdmUnsupported : Nat := 0x07
def spdmNotReady : Nat := 0x42

/-- An SPDM 1.3 ERROR response (assumption 44). -/
def spdmError (code : Nat) : State → State :=
  State.emit (.mctp (leBytes 1 0x05 ++ leBytes 1 0x13 ++ leBytes 1 0x7F ++ leBytes 1 code ++ leBytes 1 0))

/-- Is mailbox 2 done with the report that steward asked it for? -/
def relayed (s : State) (nonce : List Byte) : Bool :=
  s.mgmt.relay == some nonce && (s.mbox 2).req == fitBytes 64 (0x02 :: zeros 15 ++ nonce)

/-- GET_MEASUREMENTS with index 1: the report goes through mailbox 2 (assumption 45). -/
def measure (nonce : List Byte) (s : State) : State :=
  let n := fitBytes 32 nonce
  if !s.mgmt.up then spdmError spdmBusy s
  else if s.sealCore.identFail then spdmError spdmUnsupported s
  else if !s.sealCore.ident then spdmError spdmBusy s
  else if (s.mbox 2).busy then spdmError spdmNotReady s
  else if relayed s n then
    let s := s.modMgmt fun m => { m with relay := none }
    let b := s.mbox 2
    if b.status = stOk then s.emit (.mctp (leBytes 1 0x05 ++ leBytes 1 0x13 ++ leBytes 1 0x60 ++ Config.spdmBlock ++ b.rsp))
    else spdmError spdmUnspecified s
  else
    spdmError spdmNotReady (mboxRequest 2 (0x02 :: zeros 15 ++ n) (s.modMgmt fun m => { m with relay := some n }))

/-- The negotiation of version, capabilities and algorithms. -/
def negotiate (request : List Byte) (s : State) : State :=
  if mctpMax < request.length + 1 then sbDiscard s
  else if !s.mgmt.up then spdmError spdmBusy s
  else s.emit (.mctp (0x05 :: Config.spdmBody request))

end Sys2Proof.Machine
end

