-- ==== Sys2Proof/Machine/SbCmds.lean ====
section
/-! DEFINITION. Commands of the side-band port (17, R455 to R461). -/
namespace Sys2Proof.Machine

/-- SETDASA: a target that holds no dynamic address takes one (R455, assumption 46). -/
def execSetdasa (addr : BitVec 7) (s : State) : Out :=
  onTarget (State.modSb fun b => { b with daddr := if b.daddr = 0 then addr.toNat else b.daddr }) s

/-- ENTDAA (R455, assumption 46). -/
def execEntdaa (addr : BitVec 7) (s : State) : Out :=
  onTarget (State.modSb fun b => { b with daddr := if b.daddr = 0 then addr.toNat else b.daddr }) s

/-- RSTDAA (R455). -/
def execRstdaa (s : State) : Out := onTarget (State.modSb fun b => { b with daddr := 0 }) s

/-- GETPID (R455). -/
def execGetpid (s : State) : Out := onTarget (State.emit (.i3c (fitBytes 6 Config.i3cPid))) s

/-- GETBCR (R455). -/
def execGetbcr (s : State) : Out := onTarget (State.emit (.i3c [Config.i3cBcr])) s

/-- GETDCR (R455). -/
def execGetdcr (s : State) : Out := onTarget (State.emit (.i3c [Config.i3cDcr])) s

/-- GETSTATUS: two bytes, whose content the manual does not state (R455, assumption 2). -/
def execGetstatus (s : State) : Out := onTarget (fun s => s.drawn.emit (.i3c (fitBytes 2 (Config.i3cStatus s.free)))) s

/-- ENEC (R455). -/
def execEnec (s : State) : Out := onTarget (State.modSb fun b => { b with ibi := true }) s

/-- DISEC (R455). -/
def execDisec (s : State) : Out := onTarget (State.modSb fun b => { b with ibi := false }) s

/-- MCTP_CONTROL: served by hardware (R456). -/
def execMctpControl (msg : List Byte) (s : State) : Out := onTarget (mctpControl msg) s

/-- READ (R458). -/
def execRead (tag : Byte) (zeros : BitVec 16) (count : Byte) (addr : Quad) (s : State) : Out :=
  onTarget (sbRead tag zeros count addr.toNat) s

/-- WRITE (R458). -/
def execWrite (tag : Byte) (zeros : BitVec 16) (count : Byte) (addr : Quad) (data : List Byte) (s : State) : Out :=
  onTarget (sbWrite tag zeros count addr.toNat data) s

/-- IMAGE_BEGIN (R448, R458). -/
def execImageBegin (tag : Byte) (zeros : BitVec 16) (image : Byte) (total : Quad) (s : State) : Out :=
  onTarget (imageBegin tag zeros image total.toNat) s

/-- IMAGE_DATA (R458). -/
def execImageData (tag : Byte) (zeros : BitVec 16) (off : Quad) (data : List Byte) (s : State) : Out :=
  onTarget (imageData tag zeros off.toNat data) s

/-- IMAGE_END (R428, R458). -/
def execImageEnd (tag : Byte) (zeros : BitVec 16) (image : Option Image) (s : State) : Out :=
  onTarget (imageEnd tag zeros image) s

/-- GETTID (R460). -/
def execGettid (s : State) : Out :=
  onTarget (pldmServe 0 0x02 fun s => pldmReply 0 0x02 0 (leBytes 1 s.mgmt.tid) s) s

/-- SETTID (R460). -/
def execSettid (tid : Byte) (s : State) : Out :=
  onTarget (pldmServe 0 0x01 fun s => pldmReply 0 0x01 0 [] (s.modMgmt fun m => { m with tid := tid.toNat })) s

/-- GETPLDMVERSION (R460). -/
def execGetpldmversion (s : State) : Out := onTarget (pldmServe 0 0x03 (pldmReply 0 0x03 0 Config.pldmVersion)) s

/-- GETPLDMTYPES (R460). -/
def execGetpldmtypes (s : State) : Out := onTarget (pldmServe 0 0x04 (pldmReply 0 0x04 0 Config.pldmTypes)) s

/-- GETPLDMCOMMANDS (R460). -/
def execGetpldmcommands (s : State) : Out := onTarget (pldmServe 0 0x05 (pldmReply 0 0x05 0 Config.pldmCommands)) s

/-- GETPDR (R460). -/
def execGetpdr (record : Nat) (s : State) : Out := onTarget (pldmServe 2 0x51 (pldmReply 2 0x51 0 (Config.pldmPdr record))) s

/-- GETSENSORREADING (R460). -/
def execGetsensorreading (sensor : PldmSensor) (s : State) : Out := onTarget (pldmServe 2 0x11 (numericReading sensor)) s

/-- GETSTATESENSORREADINGS (R460). -/
def execGetstatesensorreadings (sensor : PldmSensor) (s : State) : Out :=
  onTarget (pldmServe 2 0x21 (stateReading sensor)) s

/-- SENSOR_REFRESH (R460). -/
def execSensorRefresh (s : State) : Out :=
  if s.mgmt.up then .next (s.modMgmt fun m => { m with sensors := sensorValues s }) else .next s

/-- GET_MEASUREMENTS (R461). -/
def execGetMeasurements (nonce : List Byte) (s : State) : Out := onTarget (measure nonce) s

/-- SPDM_NEGOTIATION (R461). -/
def execSpdmNegotiation (request : List Byte) (s : State) : Out := onTarget (negotiate request) s

end Sys2Proof.Machine
end

