-- ==== Sys2Proof/Machine/SealCmds.lean ====
section
/-! DEFINITION. Commands of the clear, the seal mailboxes and the supervision of the management processor (15, 16). -/
namespace Sys2Proof.Machine

/-! ### The clear -/

/-- ON_DIE_CLEAR_COMPLETE: step 2 has zeroed the on-die state and its readback found zero, or not (R437, R438). -/
def execOnDieClearComplete (zero : Bool) (s : State) : Out :=
  if !clearRuns s || s.sealCore.phase != 1 then .next s
  else if !zero then .next (clearFail stCheckFailed s)
  else .next ((clearOnDie s).modSeal fun k => { k with phase := 2 })

/-- TIER0_FILL_COMPLETE: every trained stack is zero (R437). -/
def execTier0FillComplete (s : State) : Out :=
  if !clearRuns s || s.sealCore.phase != 2 then .next s
  else
    let s := { s with dev := [], ue := [], ce := [] }.modSill fun l => { l with parkUsed := [] }
    .next (s.modSeal fun k => { k with phase := 3, percent := clearPercent s (clearT0 s) })

/-- TIER0_VERIFY_COMPLETE: the readback found zero, or it ends at a granule that is not, and the clear fails; `bytes` is what
was read back before that granule (R437, R440, R441). -/
def execTier0VerifyComplete (zero : Bool) (bytes : Nat) (s : State) : Out :=
  if !clearRuns s || s.sealCore.phase != 3 then .next s
  else if !zero then
    .next (clearFail stCheckFailed (s.modSeal fun k => { k with run := { k.run with t0Bytes := min bytes (clearT0 s) } }))
  else .next (clearPhase (s.modSeal fun k => { k with phase := 4, run := { k.run with t0Bytes := clearT0 s } }))

/-- EXPANSION_CLEAR_COMPLETE: a port is cleared by its method, or by zero writes where the device does not support it, and
its samples pass; or the port fails (R438, R440). The certificate and the record of a failure name that method. -/
def execExpansionClearComplete (n : Fin 4) (method : Fin 3) (r : ClearOutcome) (s : State) : Out :=
  if !clearWaits s n then .next s
  else
    let m := if method.val = methodOf s n then method.val else 0
    let s := methodUsed n m (s.emit (.xpClear n m))
    .next (match r with
      | .passed => portCleared n s
      | .sampleFailed => clearFail stCheckFailed s
      | .error => clearFail stCheckFailed s
      | .linkDown => clearFail stTimeout s)

/-- CLEAR_LIMIT_EXPIRY: a CXL command has passed LIMIT_S (R438, R440). -/
def execClearLimitExpiry (n : Fin 4) (s : State) : Out :=
  if clearWaits s n && methodOf s n != 0 then .next (clearFail stTimeout s) else .next s

/-- CLEAR_CERTIFY: step 6 (R437, R441). -/
def execClearCertify (s : State) : Out :=
  if !s.boot.thermtrip && s.glob.state == .clearing && s.sealCore.phase == 5 then .next (clearCertify s) else .next s

/-- XP_RETRAIN_WAIT_EXPIRY: 100 ms after a link went down, moves that still wait for it fail, and so does a clear of the port
(R260, R438, R440). -/
def execXpRetrainWaitExpiry (n : Fin 4) (s : State) : Out :=
  if (s.xp n).linkUp || !(s.xp n).fell then .next s
  else if clearWaits s n then .next (clearFail stTimeout s)
  else
    let waits := s.sill.moves.filter fun m => (movePorts s m).contains n.val
    .next (sillSettle (forEach waits (fun m s =>
      match s.sill.moves.find? fun x => x.id == m.id with
      | some m => failMove m s
      | none => s) s))

/-! ### Mailboxes -/

/-- GET_IDENTITY (R431). -/
def execGetIdentity (m : Fin 3) (s : State) : Out := .next (mboxRequest m [0x01] s)

/-- GET_REPORT, with the verifier's nonce (R431, R432). -/
def execGetReport (m : Fin 3) (nonce : List Byte) (s : State) : Out :=
  .next (mboxRequest m (0x02 :: zeros 15 ++ fitBytes 32 nonce) s)

/-- SET_CONFIDENTIAL (R431, R434). -/
def execSetConfidential (m : Fin 3) (s : State) : Out := .next (mboxRequest m [0x03] s)

/-- CLEAR_RETRY (R431). -/
def execClearRetry (m : Fin 3) (s : State) : Out := .next (mboxRequest m [0x04] s)

/-- MAILBOX_REQUEST_COMPLETE (R430). -/
def execMailboxRequestComplete (s : State) : Out := .next (mboxDone s)

/-! ### The watchdog (R422, R423) -/

/-- WATCHDOG_SERVICE: BEATS counts it. -/
def execWatchdogService (s : State) : Out :=
  if s.mgmt.up then .next (s.modMgmt fun m => { m with beats := (m.beats + 1) % 2 ^ 32 }) else .next s

/-- WATCHDOG_EXPIRY: 100 ms without a service. -/
def execWatchdogExpiry (s : State) : Out := if s.mgmt.up then .next (restartMp 1 s) else .next s

/-- RESTART: MP_SUPERVISE.RESTART written through the side-band. -/
def execRestart (s : State) : Out := if s.boot.out && s.sealCore.ready then .next (restartMp 2 s) else .next s

/-- MP_RESTART_COMPLETE: the image read again verifies, or the processor stays in reset. -/
def execMpRestartComplete (image : Option Image) (s : State) : Out :=
  if s.mgmt.restarting then .next (releaseMp image s) else .next s

/-! ### The noise source (R429) -/

/-- NOISE_HEALTH_FAIL. -/
def execNoiseHealthFail (s : State) : Out :=
  if s.boot.out then .next (s.modSeal fun k => { k with noiseFail := true }) else .next s

/-- NOISE_HEALTH_PASS: no health test fails any longer. -/
def execNoiseHealthPass (s : State) : Out := .next (s.modSeal fun k => { k with noiseFail := false })

end Sys2Proof.Machine
end

