-- ==== Sys2Proof/Machine/SillCmds.lean ====
section
/-! DEFINITION. The events of Sillage, of the HBM controllers, of the scrubs and of the expansion links (05, R149; 09). -/
namespace Sys2Proof.Machine

/-! ### Sillage moves (R265 to R271) -/

/-- SILLAGE_MOVE_START: Sillage starts the next move in arbitration order (R271). -/
def execSillageMoveStart (s : State) : Out := .next (sillSettle (startNext s))

/-- Are the links of every port the move uses up (R260)? -/
def moveLinksUp (s : State) (m : Move) : Bool := (movePorts s m).all fun n => (s.xp n).linkUp

/-- The move of a page that is in flight with nothing left to wait for. -/
def readyMove (s : State) (c : Nat) : Option Move :=
  match flightOf s c with
  | some m => if m.left = 0 && moveLinksUp s m then some m else none
  | none => none

/-- PAGE_IN_COMPLETE: the copy has been read, or the read has failed (R259, R265). -/
def execPageInComplete (cpn : BitVec 22) (readOk : Bool) (s : State) : Out :=
  match readyMove s cpn.toNat with
  | some m => .next (if m.isPageIn then sillSettle (finishPageIn m readOk s) else s)
  | none => .next s

/-- Does the eviction rule ask for another victim (R266)? Evictions under way count as frames freed. -/
def wantsEviction (s : State) : Bool :=
  sillMayStart s && (freeFrames s < s.sill.low || s.sill.evicting)
  && freeFrames s + (evictions s).length < s.sill.high

/-- EVICTION: below LOW, and until HIGH, Sillage evicts the victim of R266. -/
def execEviction (s : State) : Out :=
  if !wantsEviction s then .next s
  else match victim s with
    | some v =>
      .next (sillSettle (beginEviction 0 3 v.1 v.2.cpn [] (s.modSill fun l => { l with evicting := true })))
    | none => .next s

/-- EVICTION_COMPLETE: the copy of a dirty page is written and its parity is acknowledged (R266, R268). -/
def execEvictionComplete (cpn : BitVec 22) (s : State) : Out :=
  match readyMove s cpn.toNat with
  | some m => .next (if m.isEvict then sillSettle (finishEviction m s) else s)
  | none => .next s

/-- A move between park stores that Sillage has queued for a class and not ended. -/
def parkedMoves (s : State) (cls : Nat) : List Move :=
  s.sill.moves.filter fun m => m.cls == cls && match m.kind with
    | .parked _ => true
    | .pageIn _ => false
    | .commit _ => false
    | .evict _ => false
    | .rebuild => false
    | .detach => false

/-- Parked pages whose copy satisfies a test, with no move. -/
def parkedPages (s : State) (p : Nat × Nat → Bool) : List Nat :=
  filterBelow (cptSize s) fun c => pageState s c == pgParked && p (copyAt s c) && (moveOf s c).isNone

/-- DEMOTION: with fewer than 512 free frames in tier 1, the page whose AGE was lowest when it was parked goes to tier 2
(R266). -/
def execDemotion (s : State) : Out :=
  if !sillMayStart s || 512 ≤ freePark s 1 + (parkedMoves s 4).length then .next s
  else match leastBy (fun c => cptFld s c 31 24 * 2 ^ 22 + c) (parkedPages s fun d => (s.xp d.1).tierOf d.1 == 1) with
    | some c => .next (sillSettle (queueMove (.parked 2) 4 c none [] s))
    | none => .next s

/-- PARKED_MOVE_COMPLETE: a page has been copied from one park-store frame to another, or its read has failed (R259, R266,
R270). -/
def execParkedMoveComplete (cpn : BitVec 22) (readOk : Bool) (s : State) : Out :=
  match readyMove s cpn.toNat with
  | some m =>
    match m.kind with
    | .parked _ => .next (sillSettle (finishParked m readOk s))
    | .pageIn _ => .next s
    | .commit _ => .next s
    | .evict _ => .next s
    | .rebuild => .next s
    | .detach => .next s
  | none => .next s

/-- COMMIT_COMPLETE: a commit, or the parity update of a detach, has its acknowledgements (R268). -/
def execCommitComplete (cpn : BitVec 22) (s : State) : Out :=
  match readyMove s cpn.toNat with
  | some m =>
    match m.kind with
    | .commit _ => .next (sillSettle (finishCommit m s))
    | .detach => .next (sillSettle (finishDetach m s))
    | .pageIn _ => .next s
    | .evict _ => .next s
    | .parked _ => .next s
    | .rebuild => .next s
  | none => .next s

/-- REBUILD_COMPLETE: every member has been loaded, and the copy is written (R269). -/
def execRebuildComplete (cpn : BitVec 22) (s : State) : Out :=
  match readyMove s cpn.toNat with
  | some m =>
    match m.kind with
    | .rebuild => .next (sillSettle (finishRebuild m s))
    | .pageIn _ => .next s
    | .commit _ => .next s
    | .evict _ => .next s
    | .parked _ => .next s
    | .detach => .next s
  | none => .next s

/-- A frame's age after a period (R267). -/
def Frame0.aged (f : Frame0) : Frame0 := { f with age := f.age / 2 + 128 * b2n f.ref, ref := false }

/-- AGE_PERIOD: every age moves right and takes the referenced bit (R267). -/
def execAgePeriod (s : State) : Out :=
  .next (if s.sill.en then
    s.modSill fun l => { l with frames := l.frames.map fun e => (e.1, e.2.map Frame0.aged) }
  else s)

/-- WEAR_ROTATION: while the counts differ by more than the threshold, a parked page of the least-written extent moves
into a free frame of the most-written one (R270). -/
def execWearRotation (s : State) : Out :=
  let es := extentList s
  match leastBy (·.1) es, leastBy (fun e => 2 ^ 48 - e.1) es with
  | some lo, some hi =>
    if sillMayStart s && 512 * s.sill.wearDelta < hi.1 - lo.1 then
      match (parkedPages s fun d => d.1 == lo.2.1 && lo.2.2 ≤ d.2 && d.2 < lo.2.2 + 512), extentFrame s hi.2 with
      | c :: _, some d => .next (sillSettle (queueMove (.parked 2) 5 c (some d) [] s))
      | _, none => .next s
      | [], some _ => .next s
    else .next s
  | none, _ => .next s
  | some _, none => .next s

/-! ### HBM (R253 to R255) -/

/-- HBM_REFRESH: the controller refreshes its stack; a stack in PARK refreshes itself (R254, R388). -/
def execHbmRefresh (n : Fin 12) (s : State) : Out :=
  if !(s.hbm n).ready || s.domain (hbmDom n) == .park then .next s
  else .next (countHbm n 4 1 ((s.modHbm n fun h => { h with refreshes := h.refreshes + 1 }).emit (.refresh n)))

/-- Granules of one stack: 64 GiB (R437). -/
def stackGranules : Nat := 2 ^ 30

/-- The tier-0 address of the `k`-th granule of a stack, in address order (R252). -/
def granuleOfStack (n k : Nat) : Nat := (k / 32 * 12 + n) * 2048 + k % 32 * 64

/-- The clean page with a committed copy that the granule lies in, and its frame (R255). -/
def repairable (s : State) (a : Nat) : Option (Nat × Nat) :=
  match frameAt s (a / pageBytes) with
  | none => none
  | some fr =>
    let c := fr.cpn
    let d := copyAt s c
    if s.sill.en && pageState s c != pgLost && cptFld s c 5 4 = 2 && !parkBad s d.1 d.2
        && crc64 (parkRead s d.1 d.2) = cptFld s c 191 128 then some (c, a / pageBytes) else none

/-- An uncorrectable error the scrub found: noted, and repaired from the committed copy where there is one (R255). -/
def scrubBad (a : Nat) (s : State) : State :=
  let s := { s with ue := if s.ue.contains (a / 64) then s.ue else a / 64 :: s.ue, ce := s.ce.filter (· != a / 64) }
  match repairable s a with
  | some (c, f) => ueNoteAs 1 a (devWrite (frameAddr f) (parkRead s (copyAt s c).1 (copyAt s c).2) s)
  | none => ueNote a s

/-- The scrub moves to the next granule; a pass ends after the last (R255). -/
def scrubNext (n : Nat) : State → State :=
  State.modHbm n fun h =>
    if h.scrubPos + 1 < stackGranules then { h with scrubPos := h.scrubPos + 1 }
    else { h with scrubPos := 0, passes := (h.passes + 1) % 2 ^ 32 }

def insertNew (l : List Nat) (w : Nat) : List Nat := if l.contains w then l else l ++ [w]

/-- An error arises in a granule unseen: one the controller corrects at the next read, or one it cannot (R253). -/
def strike (single : Bool) (a : Nat) (s : State) : State :=
  if single && !s.ue.contains (a / 64) then { s with ce := insertNew s.ce (a / 64) }
  else { s with ue := insertNew s.ue (a / 64), ce := s.ce.filter (· != a / 64) }

/-- PATROL_SCRUB: the guaranteed read of one granule; it is corrected or reported (R253, R255). The scrub pauses in PARK
(R388). -/
def execPatrolScrub (n : Fin 12) (found : ScrubFind) (s : State) : Out :=
  if !(s.hbm n).ready || s.domain (hbmDom n) == .park then .next s
  else
    let a := granuleOfStack n (s.hbm n).scrubPos
    let s := correctRead a 64 (countHbm n 15 1 (countHbm n 5 1 (scrubNext n s)))
    let s := if granuleBad s a then scrubBad a s else s
    .next (match found with
      | .clean => s
      | .corrected => if granuleBad s a then s else countHbm n 6 1 s
      | .onDie => countHbm n 8 1 s
      | .uncorrectable => if granuleBad s a then s else scrubBad a s
      | .struck single => strike single a s)

/-! ### SRAM scrubs (R148, R149) -/

/-- A scrub reads word `w` of an array, whose words in error it is given, those of one bit first: was a correction made, and
the words then in error. An error the code cannot correct stays as it is. -/
def scrubWord (found : ScrubFind) (w : Nat) (ce bad : List Nat) : Bool × List Nat × List Nat :=
  let known := ce.contains w
  let rest := ce.filter (· != w)
  match found with
  | .clean => (known, rest, bad)
  | .onDie => (known, rest, bad)
  | .corrected => (known || !bad.contains w, rest, bad)
  | .uncorrectable => (false, rest, insertNew bad w)
  | .struck single =>
    if single && !bad.contains w then (known, rest ++ [w], bad) else (known, rest, insertNew bad w)

/-- SCRUB_DEFERRAL_EXPIRY: the scrub of a bank takes a cycle; `word` is the number of the 8-byte word, and one past the array
names no granule. Before BIST has left the arrays with valid check bits none is scrubbed (R148 to R150). -/
def execScrubDeferralExpiry (bank : SramBank) (word : Nat) (found : ScrubFind) (s : State) : Out :=
  if !s.boot.bistDone || s.boot.thermtrip then .next s else
  match bank with
  | .spm c k =>
    let s := countCore c k 45 1 s
    let r := scrubWord found word (s.core c k).spmCe (s.core c k).spmBad
    .next (if 8 * word < spmBytes then s.modCore c k fun x => { x with spmCe := r.2.1, spmBad := r.2.2 } else s)
  | .imem c k =>
    let r := scrubWord found (word / 2) (s.core c k).imemCe (s.core c k).imemBad
    .next (if word < 2 * imemBundles then s.modCore c k fun x => { x with imemCe := r.2.1, imemBad := r.2.2 } else s)
  | .pool c =>
    let r := scrubWord found word (s.cluster c).poolCe (s.cluster c).poolBad
    if 8 * word < poolBytes then
      .next (countEpb c 31 (b2n r.1) (s.modCluster c fun x => { x with poolCe := r.2.1, poolBad := r.2.2 }))
    else .next s
  | .regs c k =>
    .next (match found with
      | .struck _ => s.modCore c k fun x => { x with regBad := true }
      | .clean => s
      | .corrected => s
      | .onDie => s
      | .uncorrectable => s)

/-! ### Expansion links (R257, R260) -/

/-- XP_DOWN, for a link that went down or came back (R260, R375). -/
def xpRecord (n : Nat) (up : Bool) (s : State) : State :=
  faultRecord s.mainPort (mkRecord s 0x09 0 4 0 n [] (leBytes 1 n ++ leBytes 1 (b2n up))) s

/-- XP_LINK_DOWN (R260). -/
def execXpLinkDown (n : Fin 4) (s : State) : Out :=
  if (s.xp n).linkUp then
    .next (xpRecord n false (s.modXp n fun x => { x with linkUp := false, rate := 0, narrow := false, fell := true }))
  else .next s

/-- XP_LINK_UP: the link has trained at x16 or x8, at 32 or 64 GT/s (R257, R260); `poison` are the granules of the device
whose reads it answers, from here on, with poison, an error or nothing, and on a link that is up the row tells only of
these (R259, assumption 78). A device whose link returns while steward
is not up waits with DEV_READY clear (R424). -/
def execXpLinkUp (n : Fin 4) (fast narrow : Bool) (poison : List Nat) (s : State) : Out :=
  if !s.boot.out || s.boot.thermtrip then .next s
  else
    let up := (s.xp n).linkUp
    let s := s.modXp n fun x => { x with poison := poison }
    if up then .next s else
    let fell := (s.xp n).fell
    let ready := (s.xp n).devReady && s.mgmt.up
    let s := s.modXp n fun x =>
      { x with linkUp := true, rate := if fast then 2 else 1, narrow := narrow, fell := false, devReady := ready }
    let s := if ready then s else setDomain (xpDom n) .off s
    .next (sillSettle (if fell then xpRecord n true s else s))

end Sys2Proof.Machine
end

