-- ==== Sys2Proof/Machine/SwitchCmds.lean ====
section
/-! DEFINITION. The commands of the switch: arrivals, grants, discards by age, gather records, ports going down, audit
and telemetry (10, 11). -/
namespace Sys2Proof.Machine

/-- An arrival that ends a packet at its source frees a TID slot, which the source's TEs may use (R84). -/
def pumpSource (i : Nat) (s : State) : State := if 88 ≤ i then pumpCluster (i - 88) s else s

/-- PACKET_ARRIVAL: the next packet of an input reaches the switch and is dealt with in the order of R276. -/
def execPacketArrival (i : Fin 104) (s : State) : Out := .next (linkPoll (pumpSource i (arriveIf (fun _ => true) i s)))

/-- OUTPUT_GRANT: the output sends the packet R280 and R310 choose, if one can be sent. -/
def execOutputGrant (o : Fin 104) (s : State) : Out := .next (linkPoll (grantOutput o s))

/-- The packet of a queue that has waited longest. -/
def oldestIn (s : State) (o v : Nat) : Option QPkt :=
  (s.sw.queue o v).foldl (fun b q => match b with
    | none => some q
    | some x => if q.since < x.since then some q else some x) none

/-- AGE_DROP: the packet of the queue that has waited longest reaches 240 µs and is discarded (R277). -/
def execAgeDrop (o : Fin 104) (v : Fin 8) (s : State) : Out :=
  match oldestIn s o v with
  | none => .next s
  | some q =>
    .next (linkPoll (raising (State.modSw fun w => { w with ageDrop := cnt32 w.ageDrop, evAge := true })
      (discard o v q s)))

/-- GATHER_RECORD_TIMEOUT: the record ends, and nothing is sent (R291). -/
def execGatherRecordTimeout (snode tid : BitVec 12) (s : State) : Out :=
  .next (s.modSw fun w =>
    { w with gathers := w.gathers.filter fun g => !(g.snode == snode.toNat && g.tid == tid.toNat) })

/-- GATHER_RECORD_FREED: a multicast store waiting at its attachment takes the freed record and enters (R291). -/
def execGatherRecordFreed (e : Fin 16) (s : State) : Out :=
  .next (pumpSource (88 + e) (arriveIf (fun p => p.hdr.op.toNat == opMcast) (88 + e) s))

/-- PORT_DOWN: the link layer declares a port down (R297, R342). It waits in DISABLED for its next training (R337). -/
def execPortDown (n : Fin 88) (s : State) : Out :=
  if s.live n then .next (linkPoll (portGoDown n .disabled s)) else .next s

/-- CREDIT_WATCHDOG_EXPIRY: no credit came back for 10 µs on a VC with a packet waiting: the port goes down (R297). -/
def execCreditWatchdogExpiry (n : Fin 88) (v : Fin 8) (s : State) : Out :=
  if s.live n && (s.sw.queue n v).any (fun q => !hasCredit s n v (cellsOf q.pkt)) then
    .next (linkPoll (portGoDown n .disabled s))
  else .next s

/-- FRAME_ACK_TIMEOUT: a frame is still unacknowledged, or undelivered at an endpoint attachment, 12 µs after it was first
sent: the port or the attachment goes down (R277, R341). -/
def execFrameAckTimeout (o : Fin 104) (s : State) : Out :=
  if 88 ≤ o.val then .next (linkPoll (attachGoDown (o - 88) s))
  else if s.live o && !(s.port o).retry.isEmpty then .next (linkPoll (portGoDown o .disabled s)) else .next s

/-- Mark the packet whose cell is in conflict, with every copy that shares its cells: each goes when it reaches the head of
its queue (R301, R308). -/
def doom (o v i : Nat) (s : State) : State :=
  match (s.sw.queue o v)[i]? with
  | none => s
  | some q =>
    s.modSw fun w =>
      { w with queues := mapAll [] (List.map fun x => { x with doomed := x.doomed || x.hold == q.hold }) w.queues }

/-- The audit no longer suspects a cell: it is on the free list again (R308). -/
def Switch.unsuspect (c : Nat) (w : Switch) : Switch :=
  if w.suspects.contains c then { w with suspects := w.suspects.filter (· != c), free := w.free + 1 } else w

/-- The audit moves to the next cell; after the last it has completed a pass (R308). -/
def auditNext (s : State) : State :=
  s.modSw fun w =>
    if w.auditCell + 1 = 262144 then { w with auditCell := 0, passes := (w.passes + 1) % 2 ^ 32 }
    else { w with auditCell := w.auditCell + 1 }

/-- AUDIT_CELL_CHECK: the audit judges one cell. A cell found unowned is off the free list until its second pass returns it;
a conflict's repair leaves FREE at what the packets do not hold (R308, assumption 16). -/
def execAuditCellCheck (found : AuditFind) (s : State) : Out :=
  if !s.sw.ready then .next s else
  let c := s.sw.auditCell
  match found with
  | .consistent => .next (auditNext (s.modSw (Switch.unsuspect c)))
  | .unowned =>
    if s.sw.suspects.contains c then
      .next (auditNext (raising (State.modSw fun w =>
        { w.unsuspect c with leaked := cnt16 w.leaked, leakEv := true }) s))
    else if s.sw.free = 0 then .next (auditNext s)
    else .next (auditNext (s.modSw fun w => { w with suspects := w.suspects ++ [c], free := w.free - 1 }))
  | .both o v i =>
    .next (auditNext (doom o v i (raising (State.modSw fun w =>
      { w.unsuspect c with conflict := satInc 0x3FFF w.conflict, conflictEv := true }) s)))

/-- QUEUE_SAMPLE: one queue is sampled (R319). -/
def execQueueSample (o : Fin 104) (v : Fin 8) (s : State) : Out :=
  if !s.sw.ready then .next s else
  let d := queueCells s o v
  let delay := match s.sw.queue o v with
    | [] => 0
    | q :: _ => min 0xFFFF ((s.now - q.queued) / 20)
  .next (s.modSw fun w =>
    { w with qsample := SMap.upd QSample.reset w.qsample (8 * o.val + v.val) fun q =>
        { depth := d, peak := max q.peak d, delay := delay } })

/-- The figures of one map entry over the period that ends (R323). -/
def cmapEntry (s : State) (e : Nat) : CMap :=
  let a := SMap.get CAcc.reset s.sw.cacc e
  let period := max 1 (s.now - s.sw.cmapFrom)
  { reqOcc := a.req / period, rspOcc := a.rsp / period, noCredit := min 255 (256 * a.noCredit / period),
    maxDelay := a.maxDelay, detours := min 0xFFFF a.detours,
    live := if e < 22 then ((bundlePorts e).filter s.live).length else 0 }

/-- CONGESTION_MAP_PERIOD: the map period ends and its figures go to the registers (R323). -/
def execCongestionMapPeriod (s : State) : Out :=
  if !s.sw.ready then .next s else
  let s := forEach (List.range 38) cmapAdvance s
  .next (s.modSw fun w =>
    { w with cmap := (List.range 38).foldl (fun m e => SMap.set CMap.reset m e (cmapEntry s e)) [],
             cacc := [], cmapFrom := s.now, cmapSeq := (w.cmapSeq + 1) % 2 ^ 32 })

end Sys2Proof.Machine
end

