-- ==== Sys2Proof/Machine/Dispatch.lean ====
section
/-! DEFINITION. The meaning of every command: one arm per constructor. -/
namespace Sys2Proof.Machine

def exec (i : Instr) (s : State) : Host.Outcome State Fault Refusal :=
  match i with
  | .rstNRise => Sys2Proof.Machine.execRstNRise s
  | .rstNPulse ns => Sys2Proof.Machine.execRstNPulse ns s
  | .vddAonBrownout => Sys2Proof.Machine.execVddAonBrownout s
  | .refclkCoreLoss ns => Sys2Proof.Machine.execRefclkCoreLoss ns s
  | .laneReferenceLoss side => Sys2Proof.Machine.execLaneReferenceLoss side s
  | .sealFirmwareVerified primary second => Sys2Proof.Machine.execSealFirmwareVerified primary second s
  | .bistComplete code pass => Sys2Proof.Machine.execBistComplete code pass s
  | .hbmTrainingComplete n ok => Sys2Proof.Machine.execHbmTrainingComplete n ok s
  | .identityDerived ok => Sys2Proof.Machine.execIdentityDerived ok s
  | .stewardReleased image => Sys2Proof.Machine.execStewardReleased image s
  | .xpEnumeration n dev => Sys2Proof.Machine.execXpEnumeration n dev s
  | .noiseHealthFail => Sys2Proof.Machine.execNoiseHealthFail s
  | .positionWrite p v => Sys2Proof.Machine.execPositionWrite p v s
  | .slotWrite p v => Sys2Proof.Machine.execSlotWrite p v s
  | .partitionWrite p v => Sys2Proof.Machine.execPartitionWrite p v s
  | .mgrListWrite p n v => Sys2Proof.Machine.execMgrListWrite p n v s
  | .dasRootWrite x n v => Sys2Proof.Machine.execDasRootWrite x n v s
  | .lensDescriptorWrite x e w q v => Sys2Proof.Machine.execLensDescriptorWrite x e w q v s
  | .xpConfigWrite x n v => Sys2Proof.Machine.execXpConfigWrite x n v s
  | .sillCtrlWrite p v => Sys2Proof.Machine.execSillCtrlWrite p v s
  | .sillConfigWrite p r v => Sys2Proof.Machine.execSillConfigWrite p r v s
  | .routeWrite p ver slot v => Sys2Proof.Machine.execRouteWrite p ver slot v s
  | .mcastWrite p ver g q v => Sys2Proof.Machine.execMcastWrite p ver g q v s
  | .epochWrite p v => Sys2Proof.Machine.execEpochWrite p v s
  | .epochDrainExpiry => Sys2Proof.Machine.execEpochDrainExpiry s
  | .fenceWrite p n v => Sys2Proof.Machine.execFenceWrite p n v s
  | .transitWrite p n v => Sys2Proof.Machine.execTransitWrite p n v s
  | .transitCfgWrite p v => Sys2Proof.Machine.execTransitCfgWrite p v s
  | .gminWrite p vc v => Sys2Proof.Machine.execGminWrite p vc v s
  | .shapeWrite p o vc q v => Sys2Proof.Machine.execShapeWrite p o vc q v s
  | .shaperCommit o vc => Sys2Proof.Machine.execShaperCommit o vc s
  | .polWrite p a2 c q v => Sys2Proof.Machine.execPolWrite p a2 c q v s
  | .policerCommit a1 c => Sys2Proof.Machine.execPolicerCommit a1 c s
  | .mirrorCfgWrite p v => Sys2Proof.Machine.execMirrorCfgWrite p v s
  | .registerWrite p addr data => Sys2Proof.Machine.execRegisterWrite p addr data s
  | .rcRead p addr len => Sys2Proof.Machine.execRcRead p addr len s
  | .reqConfigured p => Sys2Proof.Machine.execReqConfigured p s
  | .reqAssigned p => Sys2Proof.Machine.execReqAssigned p s
  | .reqRunning p => Sys2Proof.Machine.execReqRunning p s
  | .reqDraining p => Sys2Proof.Machine.execReqDraining p s
  | .reqFenced p => Sys2Proof.Machine.execReqFenced p s
  | .reqClearing p => Sys2Proof.Machine.execReqClearing p s
  | .tier0FillComplete => Sys2Proof.Machine.execTier0FillComplete s
  | .tier0VerifyComplete zero bytes => Sys2Proof.Machine.execTier0VerifyComplete zero bytes s
  | .expansionClearComplete n method r => Sys2Proof.Machine.execExpansionClearComplete n method r s
  | .clearLimitExpiry n => Sys2Proof.Machine.execClearLimitExpiry n s
  | .clearCertify => Sys2Proof.Machine.execClearCertify s
  | .getIdentity m => Sys2Proof.Machine.execGetIdentity m s
  | .getReport m nonce => Sys2Proof.Machine.execGetReport m nonce s
  | .mailboxRequestComplete => Sys2Proof.Machine.execMailboxRequestComplete s
  | .setConfidential m => Sys2Proof.Machine.execSetConfidential m s
  | .clearRetry m => Sys2Proof.Machine.execClearRetry m s
  | .watchdogService => Sys2Proof.Machine.execWatchdogService s
  | .watchdogExpiry => Sys2Proof.Machine.execWatchdogExpiry s
  | .restart => Sys2Proof.Machine.execRestart s
  | .mpRestartComplete image => Sys2Proof.Machine.execMpRestartComplete image s
  | .replayOrder p v => Sys2Proof.Machine.execReplayOrder p v s
  | .tailDoorbell x r off data => Sys2Proof.Machine.execTailDoorbell x r off data s
  | .headDoorbell x r v => Sys2Proof.Machine.execHeadDoorbell x r v s
  | .ringEnable x r v => Sys2Proof.Machine.execRingEnable x r v s
  | .ringDisable x r v => Sys2Proof.Machine.execRingDisable x r v s
  | .commandTake x r entry => Sys2Proof.Machine.execCommandTake x r entry s
  | .nop site => Sys2Proof.Machine.execNop site s
  | .copy c t host => Sys2Proof.Machine.execCopy c t host s
  | .verify c t host => Sys2Proof.Machine.execVerify c t host s
  | .put c t host => Sys2Proof.Machine.execPut c t host s
  | .get c t => Sys2Proof.Machine.execGet c t s
  | .mput c t host => Sys2Proof.Machine.execMput c t host s
  | .rput c t host => Sys2Proof.Machine.execRput c t host s
  | .oput c t host => Sys2Proof.Machine.execOput c t host s
  | .lseput c t host => Sys2Proof.Machine.execLseput c t host s
  | .atomic c t => Sys2Proof.Machine.execAtomic c t s
  | .sillPrefetch c t => Sys2Proof.Machine.execSillPrefetch c t s
  | .sillCommit c t => Sys2Proof.Machine.execSillCommit c t s
  | .windowUpdate x r => Sys2Proof.Machine.execWindowUpdate x r s
  | .windowUpdateSwitchPoint e w => Sys2Proof.Machine.execWindowUpdateSwitchPoint e w s
  | .windowUpdateDrained x r index => Sys2Proof.Machine.execWindowUpdateDrained x r index s
  | .lensInvalidate x r => Sys2Proof.Machine.execLensInvalidate x r s
  | .lensInvalidateDrained x r index => Sys2Proof.Machine.execLensInvalidateDrained x r index s
  | .dvaInvalidate x r => Sys2Proof.Machine.execDvaInvalidate x r s
  | .dvaInvalidateDrained x r index => Sys2Proof.Machine.execDvaInvalidateDrained x r index s
  | .streamReset x r => Sys2Proof.Machine.execStreamReset x r s
  | .programLoad x r host => Sys2Proof.Machine.execProgramLoad x r host s
  | .coreStart x r => Sys2Proof.Machine.execCoreStart x r s
  | .coreStop x r => Sys2Proof.Machine.execCoreStop x r s
  | .teResume x r => Sys2Proof.Machine.execTeResume x r s
  | .sillAttach x r => Sys2Proof.Machine.execSillAttach x r s
  | .sillDetach x r => Sys2Proof.Machine.execSillDetach x r s
  | .sillPin x r => Sys2Proof.Machine.execSillPin x r s
  | .sillUnpin x r => Sys2Proof.Machine.execSillUnpin x r s
  | .sillMove x r => Sys2Proof.Machine.execSillMove x r s
  | .sillRebuild x r => Sys2Proof.Machine.execSillRebuild x r s
  | .teCommandStart c t host => Sys2Proof.Machine.execTeCommandStart c t host s
  | .armedCommandStart c t host => Sys2Proof.Machine.execArmedCommandStart c t host s
  | .translationWalkComplete c t => Sys2Proof.Machine.execTranslationWalkComplete c t s
  | .translationCompletion x pasid page log2 read write => Sys2Proof.Machine.execTranslationCompletion x pasid page log2 read write s
  | .pageRequestGroupResponse x page success => Sys2Proof.Machine.execPageRequestGroupResponse x page success s
  | .priWaitExpiry x page => Sys2Proof.Machine.execPriWaitExpiry x page s
  | .atsInvalidateRequest x tag pasid page log2 => Sys2Proof.Machine.execAtsInvalidateRequest x tag pasid page log2 s
  | .invalidateCompletion x tag => Sys2Proof.Machine.execInvalidateCompletion x tag s
  | .teCommandCompletion c t => Sys2Proof.Machine.execTeCommandCompletion c t s
  | .load e => Sys2Proof.Machine.execLoad e s
  | .store e => Sys2Proof.Machine.execStore e s
  | .fetchOp e => Sys2Proof.Machine.execFetchOp e s
  | .cswap e => Sys2Proof.Machine.execCswap e s
  | .reduce e => Sys2Proof.Machine.execReduce e s
  | .wreduce e => Sys2Proof.Machine.execWreduce e s
  | .oreduce e => Sys2Proof.Machine.execOreduce e s
  | .lse e => Sys2Proof.Machine.execLse e s
  | .accordRootWritten e w pos step => Sys2Proof.Machine.execAccordRootWritten e w pos step s
  | .accordTimeout e w pos step => Sys2Proof.Machine.execAccordTimeout e w pos step s
  | .mcastStore a1 => Sys2Proof.Machine.execMcastStore a1 s
  | .mgmtRead => Sys2Proof.Machine.execMgmtRead s
  | .mgmtWrite => Sys2Proof.Machine.execMgmtWrite s
  | .mgmtMsg => Sys2Proof.Machine.execMgmtMsg s
  | .loadResp e => Sys2Proof.Machine.execLoadResp e s
  | .storeAck e => Sys2Proof.Machine.execStoreAck e s
  | .fetchResp e => Sys2Proof.Machine.execFetchResp e s
  | .cswapResp e => Sys2Proof.Machine.execCswapResp e s
  | .reduceAck e => Sys2Proof.Machine.execReduceAck e s
  | .wreduceAck e => Sys2Proof.Machine.execWreduceAck e s
  | .oreduceAck e => Sys2Proof.Machine.execOreduceAck e s
  | .lseAck e => Sys2Proof.Machine.execLseAck e s
  | .mcastAck a1 => Sys2Proof.Machine.execMcastAck a1 s
  | .carryAck e => Sys2Proof.Machine.execCarryAck e s
  | .mgmtReadResp => Sys2Proof.Machine.execMgmtReadResp s
  | .mgmtWriteAck => Sys2Proof.Machine.execMgmtWriteAck s
  | .mgmtMsgAck => Sys2Proof.Machine.execMgmtMsgAck s
  | .holdFullBackoffExpiry c t slot => Sys2Proof.Machine.execHoldFullBackoffExpiry c t slot s
  | .remoteOperationTimeout c t slot => Sys2Proof.Machine.execRemoteOperationTimeout c t slot s
  | .tidQuarantineExpiry c t slot => Sys2Proof.Machine.execTidQuarantineExpiry c t slot s
  | .flagHoldTimeout e snode stag => Sys2Proof.Machine.execFlagHoldTimeout e snode stag s
  | .collisionQueueDequeue e => Sys2Proof.Machine.execCollisionQueueDequeue e s
  | .pageInComplete cpn readOk => Sys2Proof.Machine.execPageInComplete cpn readOk s
  | .pageWaitExpiry e => Sys2Proof.Machine.execPageWaitExpiry e s
  | .sillageMoveStart => Sys2Proof.Machine.execSillageMoveStart s
  | .eviction => Sys2Proof.Machine.execEviction s
  | .evictionComplete cpn => Sys2Proof.Machine.execEvictionComplete cpn s
  | .demotion => Sys2Proof.Machine.execDemotion s
  | .commitComplete cpn => Sys2Proof.Machine.execCommitComplete cpn s
  | .rebuildComplete cpn => Sys2Proof.Machine.execRebuildComplete cpn s
  | .agePeriod => Sys2Proof.Machine.execAgePeriod s
  | .wearRotation => Sys2Proof.Machine.execWearRotation s
  | .hbmRefresh n => Sys2Proof.Machine.execHbmRefresh n s
  | .patrolScrub n found => Sys2Proof.Machine.execPatrolScrub n found s
  | .scrubDeferralExpiry bank word found => Sys2Proof.Machine.execScrubDeferralExpiry bank word found s
  | .xpLinkDown n => Sys2Proof.Machine.execXpLinkDown n s
  | .xpLinkUp n fast narrow poison => Sys2Proof.Machine.execXpLinkUp n fast narrow poison s
  | .xpRetrainWaitExpiry n => Sys2Proof.Machine.execXpRetrainWaitExpiry n s
  | .packetArrival a1 => Sys2Proof.Machine.execPacketArrival a1 s
  | .outputGrant o => Sys2Proof.Machine.execOutputGrant o s
  | .ageDrop o v => Sys2Proof.Machine.execAgeDrop o v s
  | .gatherRecordTimeout snode tid => Sys2Proof.Machine.execGatherRecordTimeout snode tid s
  | .gatherRecordFreed e => Sys2Proof.Machine.execGatherRecordFreed e s
  | .portDown n => Sys2Proof.Machine.execPortDown n s
  | .creditWatchdogExpiry n v => Sys2Proof.Machine.execCreditWatchdogExpiry n v s
  | .frameAckTimeout o => Sys2Proof.Machine.execFrameAckTimeout o s
  | .auditCellCheck found => Sys2Proof.Machine.execAuditCellCheck found s
  | .queueSample o v => Sys2Proof.Machine.execQueueSample o v s
  | .congestionMapPeriod => Sys2Proof.Machine.execCongestionMapPeriod s
  | .trainingFrame n k w wish => Sys2Proof.Machine.execTrainingFrame n k w wish s
  | .tapHandshakeTimeout n k => Sys2Proof.Machine.execTapHandshakeTimeout n k s
  | .trainingDeadline n => Sys2Proof.Machine.execTrainingDeadline n s
  | .idFrame n f => Sys2Proof.Machine.execIdFrame n f s
  | .fenceAdvertisement n part => Sys2Proof.Machine.execFenceAdvertisement n part s
  | .autoRetrain n => Sys2Proof.Machine.execAutoRetrain n s
  | .data n fec f => Sys2Proof.Machine.execData n fec f s
  | .dataT n fec f => Sys2Proof.Machine.execDataT n fec f s
  | .idle n fec f => Sys2Proof.Machine.execIdle n fec f s
  | .ctrl n fec f => Sys2Proof.Machine.execCtrl n fec f s
  | .recal n fec f => Sys2Proof.Machine.execRecal n fec f s
  | .restore n fec f => Sys2Proof.Machine.execRestore n fec f s
  | .degrade n fec f => Sys2Proof.Machine.execDegrade n fec f s
  | .replayTimer n => Sys2Proof.Machine.execReplayTimer n s
  | .laneFailure n k cause => Sys2Proof.Machine.execLaneFailure n k cause s
  | .degradeRepeat n => Sys2Proof.Machine.execDegradeRepeat n s
  | .laneRetrainComplete n k ok => Sys2Proof.Machine.execLaneRetrainComplete n k ok s
  | .recalibrationStart n k margin tempMoved => Sys2Proof.Machine.execRecalibrationStart n k margin tempMoved s
  | .retrain p n => Sys2Proof.Machine.execRetrain p n s
  | .portEn p n on => Sys2Proof.Machine.execPortEn p n on s
  | .loop p n mode => Sys2Proof.Machine.execLoop p n mode s
  | .testPattern p n v => Sys2Proof.Machine.execTestPattern p n v s
  | .coalesceTimer x r => Sys2Proof.Machine.execCoalesceTimer x r s
  | .take x => Sys2Proof.Machine.execTake x s
  | .autoTakeover => Sys2Proof.Machine.execAutoTakeover s
  | .hostLinkDown x => Sys2Proof.Machine.execHostLinkDown x s
  | .hostLinkUp x rate width => Sys2Proof.Machine.execHostLinkUp x rate width s
  | .perstN x low => Sys2Proof.Machine.execPerstN x low s
  | .functionLevelReset x => Sys2Proof.Machine.execFunctionLevelReset x s
  | .memoryApertureRead x off len => Sys2Proof.Machine.execMemoryApertureRead x off len s
  | .memoryApertureWrite x off data => Sys2Proof.Machine.execMemoryApertureWrite x off data s
  | .role p x => Sys2Proof.Machine.execRole p x s
  | .capHostWrite p v => Sys2Proof.Machine.execCapHostWrite p v s
  | .capRackWrite p v => Sys2Proof.Machine.execCapRackWrite p v s
  | .warnWrite p v => Sys2Proof.Machine.execWarnWrite p v s
  | .orphanWrite p v => Sys2Proof.Machine.execOrphanWrite p v s
  | .heartbeat p v => Sys2Proof.Machine.execHeartbeat p v s
  | .orphan => Sys2Proof.Machine.execOrphan s
  | .powerEstimate watts fit hbmFit => Sys2Proof.Machine.execPowerEstimate watts fit hbmFit s
  | .workingLimitUpdate p10 policy => Sys2Proof.Machine.execWorkingLimitUpdate p10 policy s
  | .estimateCalibration power => Sys2Proof.Machine.execEstimateCalibration power s
  | .pmbusReadFailure => Sys2Proof.Machine.execPmbusReadFailure s
  | .operatingPointChange point fit => Sys2Proof.Machine.execOperatingPointChange point fit s
  | .avsbusTimeout => Sys2Proof.Machine.execAvsbusTimeout s
  | .capUnmet => Sys2Proof.Machine.execCapUnmet s
  | .pwrWarnNAssert => Sys2Proof.Machine.execPwrWarnNAssert s
  | .pwrWarnNRelease => Sys2Proof.Machine.execPwrWarnNRelease s
  | .throttle tj sensor => Sys2Proof.Machine.execThrottle tj sensor s
  | .swSlow temp => Sys2Proof.Machine.execSwSlow temp s
  | .hbmHot n temp => Sys2Proof.Machine.execHbmHot n temp s
  | .thermtrip => Sys2Proof.Machine.execThermtrip s
  | .domainIdleEntry d dest => Sys2Proof.Machine.execDomainIdleEntry d dest s
  | .domainWake d => Sys2Proof.Machine.execDomainWake d s
  | .biasWrite p n v => Sys2Proof.Machine.execBiasWrite p n v s
  | .setdasa addr => Sys2Proof.Machine.execSetdasa addr s
  | .entdaa addr => Sys2Proof.Machine.execEntdaa addr s
  | .rstdaa => Sys2Proof.Machine.execRstdaa s
  | .getpid => Sys2Proof.Machine.execGetpid s
  | .getbcr => Sys2Proof.Machine.execGetbcr s
  | .getdcr => Sys2Proof.Machine.execGetdcr s
  | .getstatus => Sys2Proof.Machine.execGetstatus s
  | .enec => Sys2Proof.Machine.execEnec s
  | .disec => Sys2Proof.Machine.execDisec s
  | .mctpControl msg => Sys2Proof.Machine.execMctpControl msg s
  | .read tag zeros count addr => Sys2Proof.Machine.execRead tag zeros count addr s
  | .write tag zeros count addr data => Sys2Proof.Machine.execWrite tag zeros count addr data s
  | .imageBegin tag zeros image total => Sys2Proof.Machine.execImageBegin tag zeros image total s
  | .imageData tag zeros off data => Sys2Proof.Machine.execImageData tag zeros off data s
  | .imageEnd tag zeros image => Sys2Proof.Machine.execImageEnd tag zeros image s
  | .gettid => Sys2Proof.Machine.execGettid s
  | .settid tid => Sys2Proof.Machine.execSettid tid s
  | .getpldmversion => Sys2Proof.Machine.execGetpldmversion s
  | .getpldmtypes => Sys2Proof.Machine.execGetpldmtypes s
  | .getpldmcommands => Sys2Proof.Machine.execGetpldmcommands s
  | .getpdr record => Sys2Proof.Machine.execGetpdr record s
  | .getsensorreading sensor => Sys2Proof.Machine.execGetsensorreading sensor s
  | .getstatesensorreadings sensor => Sys2Proof.Machine.execGetstatesensorreadings sensor s
  | .sensorRefresh => Sys2Proof.Machine.execSensorRefresh s
  | .getMeasurements nonce => Sys2Proof.Machine.execGetMeasurements nonce s
  | .chainWrite p v => Sys2Proof.Machine.execChainWrite p v s
  | .countersClearCore p => Sys2Proof.Machine.execCountersClearCore p s
  | .countersClearEpb p => Sys2Proof.Machine.execCountersClearEpb p s
  | .countersClearHbm p => Sys2Proof.Machine.execCountersClearHbm p s
  | .snap p islands => Sys2Proof.Machine.execSnap p islands s
  | .snapshotIslandCopy a1 => Sys2Proof.Machine.execSnapshotIslandCopy a1 s
  | .snapshotComplete => Sys2Proof.Machine.execSnapshotComplete s
  | .intAlu c k => Sys2Proof.Machine.execIntAlu c k s
  | .mul c k => Sys2Proof.Machine.execMul c k s
  | .mulhu c k => Sys2Proof.Machine.execMulhu c k s
  | .mulh c k => Sys2Proof.Machine.execMulh c k s
  | .sel c k => Sys2Proof.Machine.execSel c k s
  | .aluImmediate c k => Sys2Proof.Machine.execAluImmediate c k s
  | .mov16 c k => Sys2Proof.Machine.execMov16 c k s
  | .mov16Z c k => Sys2Proof.Machine.execMov16Z c k s
  | .ldSpm c k => Sys2Proof.Machine.execLdSpm c k s
  | .ldPool c k => Sys2Proof.Machine.execLdPool c k s
  | .stSpm c k => Sys2Proof.Machine.execStSpm c k s
  | .stPool c k => Sys2Proof.Machine.execStPool c k s
  | .fpArith c k => Sys2Proof.Machine.execFpArith c k s
  | .fpCompare c k => Sys2Proof.Machine.execFpCompare c k s
  | .fcvtF32I64 c k => Sys2Proof.Machine.execFcvtF32I64 c k s
  | .fcvtI64F32 c k => Sys2Proof.Machine.execFcvtI64F32 c k s
  | .pset c k => Sys2Proof.Machine.execPset c k s
  | .pget c k => Sys2Proof.Machine.execPget c k s
  | .predLogic c k => Sys2Proof.Machine.execPredLogic c k s
  | .pcnt c k => Sys2Proof.Machine.execPcnt c k s
  | .branch c k => Sys2Proof.Machine.execBranch c k s
  | .bpany c k => Sys2Proof.Machine.execBpany c k s
  | .bpnone c k => Sys2Proof.Machine.execBpnone c k s
  | .j c k => Sys2Proof.Machine.execJ c k s
  | .jal c k => Sys2Proof.Machine.execJal c k s
  | .jr c k => Sys2Proof.Machine.execJr c k s
  | .trap c k => Sys2Proof.Machine.execTrap c k s
  | .csRd c k => Sys2Proof.Machine.execCsRd c k s
  | .csWr c k => Sys2Proof.Machine.execCsWr c k s
  | .wait c k => Sys2Proof.Machine.execWait c k s
  | .halt c k => Sys2Proof.Machine.execHalt c k s
  | .stalledBundleIssue c k => Sys2Proof.Machine.execStalledBundleIssue c k s
  | .vintAlu c k => Sys2Proof.Machine.execVintAlu c k s
  | .vintMinmax c k => Sys2Proof.Machine.execVintMinmax c k s
  | .vcmpInt c k => Sys2Proof.Machine.execVcmpInt c k s
  | .vsel c k => Sys2Proof.Machine.execVsel c k s
  | .vfpArith c k => Sys2Proof.Machine.execVfpArith c k s
  | .vminmaxF32 c k => Sys2Proof.Machine.execVminmaxF32 c k s
  | .vcmpF32 c k => Sys2Proof.Machine.execVcmpF32 c k s
  | .vdivVsqrt c k => Sys2Proof.Machine.execVdivVsqrt c k s
  | .vexp c k => Sys2Proof.Machine.execVexp c k s
  | .vexpd c k => Sys2Proof.Machine.execVexpd c k s
  | .vcvtInt c k => Sys2Proof.Machine.execVcvtInt c k s
  | .vcvtBf16 c k => Sys2Proof.Machine.execVcvtBf16 c k s
  | .vcvtF16 c k => Sys2Proof.Machine.execVcvtF16 c k s
  | .vcvtWiden c k => Sys2Proof.Machine.execVcvtWiden c k s
  | .vred c k => Sys2Proof.Machine.execVred c k s
  | .vtmax c k => Sys2Proof.Machine.execVtmax c k s
  | .vtexp c k => Sys2Proof.Machine.execVtexp c k s
  | .vtsum c k => Sys2Proof.Machine.execVtsum c k s
  | .vtget c k => Sys2Proof.Machine.execVtget c k s
  | .vtput c k => Sys2Proof.Machine.execVtput c k s
  | .vld c k => Sys2Proof.Machine.execVld c k s
  | .vldBc c k => Sys2Proof.Machine.execVldBc c k s
  | .vst c k => Sys2Proof.Machine.execVst c k s
  | .vmovS c k => Sys2Proof.Machine.execVmovS c k s
  | .vext c k => Sys2Proof.Machine.execVext c k s
  | .mma c k => Sys2Proof.Machine.execMma c k s
  | .mscale c k => Sys2Proof.Machine.execMscale c k s
  | .mst c k => Sys2Proof.Machine.execMst c k s
  | .wst c k => Sys2Proof.Machine.execWst c k s
  | .wld c k => Sys2Proof.Machine.execWld c k s
  | .wcvt c k => Sys2Proof.Machine.execWcvt c k s
  | .matrixOperationComplete c k => Sys2Proof.Machine.execMatrixOperationComplete c k s
  | .teIssue c k => Sys2Proof.Machine.execTeIssue c k s
  | .teArm c k => Sys2Proof.Machine.execTeArm c k s
  | .teCnt c k => Sys2Proof.Machine.execTeCnt c k s
  | .teErr c k => Sys2Proof.Machine.execTeErr c k s
  | .teWait c k => Sys2Proof.Machine.execTeWait c k s
  | .teXissue c k => Sys2Proof.Machine.execTeXissue c k s
  | .rel c k => Sys2Proof.Machine.execRel c k s
  | .acq c k => Sys2Proof.Machine.execAcq c k s
  | .barCfg c k => Sys2Proof.Machine.execBarCfg c k s
  | .barArrive c k => Sys2Proof.Machine.execBarArrive c k s
  | .barWait c k => Sys2Proof.Machine.execBarWait c k s
  | .barSync c k => Sys2Proof.Machine.execBarSync c k s
  | .fwait c k => Sys2Proof.Machine.execFwait c k s
  | .fwaitConditionMet c k => Sys2Proof.Machine.execFwaitConditionMet c k s
  | .fwaitLimitExpiry c k => Sys2Proof.Machine.execFwaitLimitExpiry c k s
  | .wakeCore c k => Sys2Proof.Machine.execWakeCore c k s
  | .watch c k => Sys2Proof.Machine.execWatch c k s
  | .switchReady p10 => Sys2Proof.Machine.execSwitchReady p10 s
  | .hostPortReady x cfg => Sys2Proof.Machine.execHostPortReady x cfg s
  | .refclkCoreReturn => Sys2Proof.Machine.execRefclkCoreReturn s
  | .cdrLock n k inverted => Sys2Proof.Machine.execCdrLock n k inverted s
  | .alignmentLock n k => Sys2Proof.Machine.execAlignmentLock n k s
  | .onDieClearComplete zero => Sys2Proof.Machine.execOnDieClearComplete zero s
  | .parkedMoveComplete cpn readOk => Sys2Proof.Machine.execParkedMoveComplete cpn readOk s
  | .streamCarryRequest e => Sys2Proof.Machine.execStreamCarryRequest e s
  | .badFrame n fec => Sys2Proof.Machine.execBadFrame n fec s
  | .msiXUnmask x vector => Sys2Proof.Machine.execMsiXUnmask x vector s
  | .jtagInstruction a1 => Sys2Proof.Machine.execJtagInstruction a1 s
  | .noiseHealthPass => Sys2Proof.Machine.execNoiseHealthPass s
  | .spdmNegotiation request => Sys2Proof.Machine.execSpdmNegotiation request s

end Sys2Proof.Machine
end

