-- ==== Sys2Proof/Machine/Lands.lean ====
section
/-! DEFINITION. The land grid of the package: what each land carries (R488 to R493). It is fixed, so it is a function
and no part of the state. -/
namespace Sys2Proof.Machine

/-- A supply rail (R493, R495). -/
inductive Rail where
  | vddaLane | vddhLane | vddSw | vddqHbm | vddHbm | vppHbm | vddIo | vddAon | vddCmp
  deriving DecidableEq, Repr

/-- Which of a lane's four lands (R490). -/
inductive LanePin where
  | txp | txn | rxp | rxn
  deriving DecidableEq, Repr

/-- A host or expansion port as a block of lands (R491). -/
inductive PortBlock where
  | hp (x : Fin 2) | xp (n : Fin 4)
  deriving DecidableEq, Repr

/-- A control or clock signal; a differential pair has its `_N` land east of its `_P` land (R492). -/
inductive Control where
  | rstN | pwrWarnN | thermtripN | sbAlertN | i3cScl | i3cSda | spiClk | spiCsN | spiIo (i : Nat)
  | tck | tms | tdi | tdo | trstN | perstN (x : Nat) | avsClk | avsMdata | avsSdata | pmbScl | pmbSda
  | refclkHp (x : Nat) (neg : Bool) | refclkXp01 (neg : Bool) | refclkXp23 (neg : Bool) | refclkCore (neg : Bool)
  | refclkLane (s : Nat) (neg : Bool) | vddCmpSense (neg : Bool) | vddSwSense (neg : Bool)
  deriving DecidableEq, Repr

/-- What a land carries. -/
inductive Land where
  /-- fabric lane `m`, 0 to 351 -/
  | fabric (m : Nat) (pin : LanePin)
  | port (b : PortBlock) (lane : Nat) (pin : LanePin)
  | control (c : Control)
  | supply (r : Rail)
  | vss
  deriving DecidableEq, Repr

/-- The pin at position `a` of a lane's six lands (R490). -/
def lanePin (a : Nat) : Option LanePin :=
  match a with
  | 1 => some .txp
  | 2 => some .txn
  | 4 => some .rxp
  | 5 => some .rxn
  | _ => none

/-- The along-side position and depth of a land seen from a side (R490). -/
def fromSide (side column row : Nat) : Nat × Nat :=
  match side with
  | 0 => (column, row)
  | 1 => (row, 129 - column)
  | 2 => (129 - column, 129 - row)
  | _ => (129 - row, column)

/-- A land of a fabric lane tile of one side, if it lies in one (R490). -/
def tileLand (side column row : Nat) : Option Land :=
  let (u, d) := fromSide side column row
  if 32 ≤ u && u < 98 && 1 ≤ d && d < 17 then
    let n := 22 * side + 11 * ((d - 1) / 8) + (u - 32) / 6
    let b := (d - 1) % 8
    some (match lanePin ((u - 32) % 6) with
      | some pin => if b % 2 = 1 then .fabric (4 * n + b / 2) pin else .vss
      | none => .vss)
  else none

/-- The origins of the host and expansion blocks (R491). -/
def blocks : List (PortBlock × Nat × Nat) :=
  [(.hp 0, 3, 1), (.xp 0, 17, 1), (.xp 1, 3, 113), (.xp 2, 101, 1), (.hp 1, 115, 1), (.xp 3, 115, 113)]

/-- A land of a host or expansion block, if it lies in one (R491). -/
def blockLand (b : PortBlock × Nat × Nat) (column row : Nat) : Option Land :=
  if b.2.1 ≤ column && column < b.2.1 + 12 && b.2.2 ≤ row && row < b.2.2 + 16 then
    let i := column - b.2.1
    let j := row - b.2.2
    some (match lanePin (i % 6) with
      | some pin => if j % 2 = 1 then .port b.1 (8 * (i / 6) + j / 2) pin else .vss
      | none => .vss)
  else none

/-- The control and clock lands that carry one signal (R492). -/
def singleLands : List ((Nat × Nat) × Control) :=
  [((99, 113), .rstN), ((101, 113), .pwrWarnN), ((103, 113), .thermtripN), ((105, 113), .sbAlertN),
   ((107, 113), .i3cScl), ((109, 113), .i3cSda), ((99, 115), .spiClk), ((101, 115), .spiCsN),
   ((103, 115), .spiIo 0), ((105, 115), .spiIo 1), ((107, 115), .spiIo 2), ((109, 115), .spiIo 3),
   ((99, 117), .tck), ((101, 117), .tms), ((103, 117), .tdi), ((105, 117), .tdo), ((107, 117), .trstN),
   ((109, 117), .perstN 1), ((17, 113), .perstN 0), ((19, 113), .avsClk), ((21, 113), .avsMdata),
   ((23, 113), .avsSdata), ((25, 113), .pmbScl), ((27, 113), .pmbSda)]

/-- The lands of the `_P` signals of the differential pairs (R492). -/
def pairLands : List ((Nat × Nat) × (Bool → Control)) :=
  [((99, 119), .refclkHp 1), ((103, 119), .refclkXp23), ((107, 119), .refclkLane 1), ((17, 115), .refclkHp 0),
   ((21, 115), .refclkXp01), ((25, 115), .refclkCore), ((17, 117), .refclkLane 0), ((21, 117), .refclkLane 3),
   ((25, 117), .vddCmpSense), ((25, 119), .vddSwSense), ((99, 121), .refclkLane 2)]

/-- A control or clock land (R492). -/
def controlLand (column row : Nat) : Option Land :=
  match singleLands.find? (fun e => e.1 == (column, row)) with
  | some e => some (.control e.2)
  | none =>
    match pairLands.find? (fun e => e.1 == (column, row)) with
    | some e => some (.control (e.2 false))
    | none =>
      match pairLands.find? (fun e => (e.1.1 + 1, e.1.2) == (column, row)) with
      | some e => some (.control (e.2 true))
      | none => none

/-- The rail of an interior land whose column and row have an odd sum (R493). -/
def interiorRail (h column row : Nat) : Rail :=
  if h ≤ 3 then .vddaLane
  else if h ≤ 4 then .vddhLane
  else if h ≤ 9 then .vddSw
  else if h ≤ 12 then .vddqHbm
  else if h ≤ 14 then .vddHbm
  else if h ≤ 15 then (if row < 65 then .vppHbm else if column < 65 then .vddIo else .vddAon)
  else .vddCmp

/-- How far an interior land lies inside the interior (R493). -/
def landDepth (column row : Nat) : Nat :=
  min (min (column - 17) (112 - column)) (min (row - 17) (112 - row))

/-- The interior supply rule (R493). -/
def interiorLand (column row : Nat) : Option Land :=
  if 17 ≤ column && column ≤ 112 && 17 ≤ row && row ≤ 112 then
    some (if (column + row) % 2 = 0 then .vss else .supply (interiorRail (landDepth column row) column row))
  else none

/-- The function of a land: the first rule that covers it, else ground (R489). -/
def land (column row : Nat) : Land :=
  let covers := (List.range 4).map (fun s => tileLand s column row)
    ++ blocks.map (fun b => blockLand b column row) ++ [controlLand column row, interiorLand column row]
  (covers.findSome? id).getD .vss

/-- How many lands of the interior carry a rail (R493). -/
def railLands (r : Rail) : Nat :=
  ((List.range 96).flatMap fun i => (List.range 96).filter fun j =>
    interiorLand (17 + i) (17 + j) == some (.supply r)).length

end Sys2Proof.Machine
end

