-- ==== Sys2Proof/Safety.lean ====
section
/-! DEFINITION. The words the statements use: who reaches a register, what a reset leaves, the invariants of a run, and
what it is for a command of a queue or a bundle of a core to go ahead. -/
namespace Sys2Proof.Machine

/-! ### Registers -/

/-- The path reaches a register that it may write, and the register's unit is ready (R450, R478, R482). -/
abbrev Writable (s : State) (p : Path) (r : Reg) : Prop :=
  pathOpen s p = true ∧ regAccess p r = .rw ∧ regReady s r = true

/-! ### Invariants -/

/-- What BIST found decides the enabled clusters and the fault code; before BIST ends nothing is enabled (R3 to R6). -/
abbrev Graded (s : State) : Prop :=
  (s.boot.bistDone = true →
    s.boot.fault = gradeFault s.boot.code s.boot.pass ∧ s.boot.enabled = maskOf (enabledOf s.boot.code s.boot.pass)) ∧
  (s.boot.bistDone = false → s.boot.enabled = 0)

/-- The memories of the package keep their canonical form: tier 0, and each expansion device's bytes. -/
abbrev Canonical (s : State) : Prop :=
  s.dev.wf = true ∧ SMap.wf Xp.reset s.xps = true ∧ ∀ n, (s.xp n).mem.wf = true

/-! ### Resets -/

/-- Every unit stands as it does after power-up; only what lies outside the package is as it was: the pins, the bytes of the
expansion devices, and the model's own queue, output and draw count (R446). -/
def PoweredUp (s t : State) : Prop :=
  t.pending = s.pending ∧ t.free = s.free ∧ t.out = s.out ∧ t.now = 0 ∧
  t.glob = Global.reset ∧ t.sw = Switch.reset ∧ t.ports = [] ∧ t.epbs = [] ∧ t.clusters = [] ∧ t.dev = [] ∧ t.ue = [] ∧ t.ce = [] ∧
  t.hbms = [] ∧ t.sill = Sillage.reset ∧ t.power = Power.reset ∧ t.sealCore = Seal.reset ∧ t.mgmt = Mgmt.reset ∧
  t.sb = Sideband.reset ∧ t.cnt = Counters.reset ∧
  (∀ x, x < 2 → t.host x = { HostPort.reset with main := x == 0, perst := (s.host x).perst }) ∧
  (∀ n, t.xp n = { Xp.reset with mem := (s.xp n).mem })

/-- The boot registers after a reset that ends with the pins as given. -/
def bootAfter (rstN refclk thermtrip : Bool) : Boot :=
  { Boot.reset with out := rstN && refclk, rstN := rstN, refclk := refclk, thermtrip := thermtrip }

/-! ### Commands of the queues -/

/-- A TE command that has been taken in hand: marked started, with what host memory returns to it. -/
def opened (c t : Nat) (q : TeCmd) (host : List Byte) (s : State) : State :=
  let data := match q.origin with | .sill _ => q.data | .ring _ _ _ _ => host | .core _ _ _ _ _ _ => host
  s.modTe c t (Te.modCmd q.id fun q => { q with started := true, data := data })

/-- The same command once its verdict is known: every one but a STATE_REJECT is counted (R364). -/
def begun (c t : Nat) (q : TeCmd) (host : List Byte) (s : State) : State := countEpb c 22 1 (opened c t q host s)

/-- The same command after its field checks: a measured one holds its place in the log (R432). -/
def ready (c t : Nat) (q : TeCmd) (host : List Byte) (s : State) : State :=
  (begun c t q host s).modTe c t (Te.modCmd q.id fun q => { q with reserved := entMeasure q.entry })

/-- The next command of the TE is `q`, it has this opcode, and nothing keeps it from starting (R360, R363, R372). -/
structure TeNext (s : State) (c t oc : Nat) (q : TeCmd) : Prop where
  next : nextCmd (s.te c t) = some q
  queued : q.phase = .queued
  opcode : entOpcode q.entry = oc
  may : mayStart s (s.te c t) q = true

/-- Checks 1 to 3 pass as it starts (R363). -/
structure TePasses (s : State) (c t oc : Nat) (q : TeCmd) (host : List Byte) : Prop where
  next : TeNext s c t oc q
  verdict : q.verdict = none
  third : (∀ m, q.origin ≠ .sill m) → dataCheck3 (opened c t q host s) q.entry = none

/-- Its ranges pass too, with no translation missing: as `r` it runs in the state `u` (R44, R47, R363). -/
structure TeRuns (s : State) (c t oc : Nat) (q : TeCmd) (host : List Byte) (r : TeCmd) (u : State) : Prop where
  passes : TePasses s c t oc q host
  found : ∃ a, ((ready c t q host s).te c t).cmd q.id = some a ∧ a.entry = q.entry ∧
    chkCmd (ready c t q host s) c a = .ok ∧
    r = { a with
      phase := .running, trans := keepTrans (ready c t q host s) c a, failAddr := 0, failDpa := 0, failOff := 0 } ∧
    u = (ready c t q host s).modTe c t (Te.modCmd q.id fun a' => { a' with
      phase := .running, trans := keepTrans (ready c t q host s) c a, failAddr := 0, failDpa := 0, failOff := 0 })

/-- The ring's next control command is `k`, it has this opcode, nothing keeps it back, and its unit's condition still holds
(R360, R366, R382). -/
structure CtlNext (s : State) (x r oc : Nat) (k : CtlCmd) : Prop where
  next : nextCtl s x r = some k
  opcode : entOpcode k.entry = oc
  may : ctlMayStart s x k = true
  holds : lapsed s k = false

/-- The state in which a control command runs. -/
def ctlStarted (x r : Nat) (k : CtlCmd) (s : State) : State :=
  s.modCtl x r k.index fun k => { k with phase := .running 0 0 }

/-! ### Packets at an endpoint -/

/-- The oldest packet of the endpoint's receive buffer is `p`, of this operation, and it may leave the buffer. -/
structure HeadIs (s : State) (e op : Nat) (p : Packet) : Prop where
  head : (s.epb e).rx.head? = some p
  crc : p.hdr.hcrcOk = true
  op : p.hdr.op.toNat = op
  free : headBlocked s e p = false

/-- The state in which a request taken from the buffer is served: the endpoint is awake, and has counted it (R385, R468). -/
def taken (e : Nat) (p : Packet) (s : State) : State := countEpb e 0 1 (wakeDomain (endpointDom e) (dropHead e p s))

/-- The request passes every check of R63 and names the bytes `gs`; no write in progress holds a granule of theirs, and it
is worked in the state `u`. -/
structure Accepted (s : State) (e op : Nat) (p : Packet) (gs : List Seg) (u : State) : Prop where
  head : HeadIs s e op p
  live : tornDown (taken e p s) = false
  form : headerVerdict p = none
  part : (taken e p s).glob.part = some p.hdr.part.toNat
  table : inStream op = true → tableFull (taken e p s) e p.hdr = false ∧
    ∀ r, recOf (taken e p s) e p.hdr = some r → r.broken = false
  lens : isCarry p.hdr = false → lensVerdict (LensDesc.at_w (taken e p s) e p.hdr.window) p.hdr = none
  target : isCarry p.hdr = false →
    windowTarget (taken e p s) e (LensDesc.at_w (taken e p s) e p.hdr.window) p.hdr.window p.hdr.pos (addressed p.hdr)
      = .segs gs
  state : u = if isCarry p.hdr then taken e p s
    else cachePages e (LensDesc.at_w (taken e p s) e p.hdr.window) p.hdr.window p.hdr.pos (addressed p.hdr) (taken e p s)
  alone : isCarry p.hdr = false → mustQueue u e p gs = false

/-! ### The sparse maps -/

/-- The maps of repeated units and registers keep their canonical form. -/
structure MapsCanonical (s : State) : Prop where
  ports : SMap.wf Port.reset s.ports = true
  epbs : SMap.wf Epb.reset s.epbs = true
  clusters : SMap.wf Cluster.reset s.clusters = true
  hosts : SMap.wf HostPort.reset s.hosts = true
  hbms : SMap.wf Hbm.reset s.hbms = true
  xps : SMap.wf Xp.reset s.xps = true
  shapers : SMap.wf Bucket.reset s.sw.shapers = true
  policers : SMap.wf Bucket.reset s.sw.policers = true
  samples : SMap.wf QSample.reset s.sw.qsample = true
  mailboxes : SMap.wf Mbox.reset s.sealCore.mbox = true
  cores : ∀ c, SMap.wf Core.reset (s.cluster c).cores = true
  tes : ∀ c, SMap.wf Te.reset (s.cluster c).tes = true
  barriers : ∀ c, SMap.wf Barrier.reset (s.cluster c).barriers = true
  scalars : ∀ c k, SMap.wf 0 (s.core c k).s = true
  predicates : ∀ c k, SMap.wf 0 (s.core c k).p = true
  lanes : ∀ c k, SMap.wf 0 (s.core c k).v = true
  tiles : ∀ c k, SMap.wf [] (s.core c k).a = true
  wides : ∀ c k, SMap.wf [] (s.core c k).w = true
  lens : ∀ e, SMap.wf LensDesc.reset (s.epb e).lens = true
  rings : ∀ x, SMap.wf Sq.reset (s.host x).sq = true

/-! ### Bundles -/

/-- Bundles with one operation. -/
def soleS (op : SOp) : Bundle := { s := op, v := none, m := none, x := none }
def soleV (op : VOp) (p : Option Nat) : Bundle := { s := .nop, v := some { op := op, pred := p }, m := none, x := none }
def soleM (op : MOp) : Bundle := { s := .nop, v := none, m := some op, x := none }
def soleX (op : XOp) : Bundle := { s := .nop, v := none, m := none, x := some op }

/-- The state in which a bundle issues: a bar.sync has arrived first (R202). -/
def arriving (c k : Nat) (b : Bundle) (s : State) : State :=
  match b.x with
  | some (.barSync i) => if (s.core c k).barIn then s else arrive c k i (s.modCore c k fun x => { x with barIn := true })
  | _ => s

/-- The core runs, the bundle at its PC is `b` and passes its checks, and nothing holds it back (R144, R186). -/
structure Issues (s : State) (c k : Nat) (b : Bundle) : Prop where
  runs : (s.core c k).run = .running
  found : look s c k = .bundle b
  free : stalls s c k b = false
  sync : syncReady (arriving c k b s) c k false b = true

/-- The bundle at the PC of a core held back is `b`, it passes its checks, and nothing holds it back any more, but perhaps
a flag wait or a bar.sync (R144, R203). -/
structure HeldFree (s : State) (c k : Nat) (b : Bundle) : Prop where
  waits : (s.core c k).run = .held
  found : look s c k = .bundle b
  free : stalls s c k b = false

/-- The core `y` with the single-bit errors corrected that `x` met as it fetched the bundle and read its operands (R148). -/
def mended (b : Bundle) (x y : Core) : Core :=
  let words := (bundleReads x b).flatMap fun r => if r.2.1 then [] else wordsOf r.2.2.1 r.2.2.2
  { y with imemCe := y.imemCe.filter (· != x.pc), spmCe := y.spmCe.filter fun w => !words.contains w }

/-- The scope records a core's loads have met after one more of `n` pool bytes at `a` (R132). -/
def metScopes (s : State) (c : Nat) (x : Core) (a n : Nat) : List ScopeRec :=
  x.loaded ++ ((s.cluster c).scopes.filter fun r => a / 64 ≤ r.granule && r.granule ≤ (a + n - 1) / 64).filter
    fun r => !x.loaded.contains r

/-- The core after a bundle that neither branches, waits nor stops. -/
def goesOn (x : Core) : Core := { x with run := .running, pc := x.pc + 1, barIn := false, issued := true }

/-- Where the core issues this bundle, the command does so, the core becomes `y` with the errors it met corrected, and every
other core stays as it is. -/
def Computes (s : State) (c : Fin 16) (k : Fin 8) (b : Bundle) (i : Instr) (y : Core) : Prop :=
  Issues s c k b → ∃ t, exec i s = .next t ∧ t.core c k = mended b (s.core c k) y ∧
    ∀ c' k', (c' ≠ c.val ∨ k' ≠ k.val) → t.core c' k' = s.core c' k'

end Sys2Proof.Machine
end

