-- ==== Sys2Proof/Certificates/Slice0/Obligations.lean ====
section
/-! DEFINITION. The statements for the provers: what each command of the package does, what it leaves alone, and what every step
keeps. -/
open Sys2Proof Sys2Proof.Machine

/-- A step takes the command at the front of the queue and answers its outcome with the rest of the queue (spec/opcode_table.json, spec/00_scope.md). -/
def Obligations.StepRunsFrontCommand : Prop :=
  ∀ (c : Instr) (rest : List Instr) (s : State), s.pending = c :: rest → step s = exec c { s with pending := rest }

/-- Every step answers a next state, and its queue is the old one without its first command (spec/opcode_table.json, notes/assumptions/1.md). -/
def Obligations.StepTakesExactlyOneCommand : Prop :=
  (∀ s : State, ∃ t, step s = .next t ∧ t.pending = s.pending.tail) ∧
  (∀ s : State, s.pending = [] → step s = .next { s with now := s.now + 1 })

/-- Every step keeps the grade: the enabled clusters and the fault code stay what BIST and the grade code decide (R3, R4, R5, R6, R449). -/
def Obligations.GradeKeptByEveryStep : Prop :=
  ∀ s t : State, Graded s → step s = .next t → Graded t

/-- Every step keeps the memories canonical: addresses strictly rising and no listed byte equal to zero (spec/09_context_state_and_tiers.md, R35). -/
def Obligations.MemoryStaysCanonical : Prop :=
  ∀ s t : State, Canonical s → step s = .next t → Canonical t

/-- Right after power-up the registers read the values the spec gives for reset, and the invariants of every step hold (R18, R302, R391, R409, R446, R447, R452). -/
def Obligations.ResetStateValues : Prop :=
  Graded State.reset ∧ Canonical State.reset ∧ MapsCanonical State.reset ∧
  State.reset.boot = { Boot.reset with state := 0, early := 0, enabled := 0, epbReady := 0 } ∧
  State.reset.boot.out = false ∧ State.reset.boot.counters = false ∧ State.reset.boot.bistDone = false ∧
  State.reset.glob.state = .unconfigured ∧ State.reset.glob.positionValid = false ∧ State.reset.glob.slotValid = false ∧
  State.reset.glob.part = none ∧ State.reset.glob.roUs = 40 ∧ State.reset.glob.holdUs = 40 ∧
  (State.reset.host 0).main = true ∧ (State.reset.host 1).main = false ∧
  (∀ x, (State.reset.host x).linkUp = false ∧ (State.reset.host x).priMs = 10 ∧ (State.reset.host x).hold = 100) ∧
  (∀ n, (State.reset.port n).state = .disabled ∧ (State.reset.port n).en = true ∧ (State.reset.port n).fenced = true ∧
        (State.reset.port n).maxVer = 3) ∧
  (∀ v, v < 8 → SMap.get 0 State.reset.sw.gmin v = if v = 0 ∨ v = 7 then 17 else 24) ∧
  State.reset.sw.ready = false ∧ State.reset.sw.free = 262144 ∧ State.reset.sw.epoch = 0 ∧
  State.reset.power.capHost = none ∧ State.reset.power.capRack = none ∧ State.reset.power.warnCap = 1000 ∧
  State.reset.power.silence = 20 ∧ State.reset.power.throttleC = 100 ∧ State.reset.power.duty = 16 ∧
  State.reset.mgmt.up = false ∧ State.reset.sealCore.ready = false ∧ State.reset.sealCore.phase = 0 ∧
  State.reset.sealCore.conf = false ∧ State.reset.sb.daddr = 0 ∧
  (∀ a, State.reset.dev.read a = 0) ∧ (∀ n a, (State.reset.xp n).mem.read a = 0) ∧
  (∀ c k, State.reset.core c k = Core.reset) ∧ (∀ c t, State.reset.te c t = Te.reset)

/-- RST_N, the brown-out and the loss of REFCLK_CORE put every unit into its state after power-up (R446, R447, R497, R499, notes/assumptions/43.md). -/
def Obligations.ResetCommandsPowerTheDeviceUp : Prop :=
  (∀ s, s.boot.rstN = false →
    exec .rstNRise s = .next { s with now := 0, boot := { s.boot with rstN := true, out := s.boot.refclk } }) ∧
  (∀ s ns, SMap.wf Xp.reset s.xps = true → 10000 ≤ ns → s.boot.rstN = true →
    ∃ t, exec (.rstNPulse ns) s = .next t ∧ PoweredUp s t ∧ t.boot = bootAfter true s.boot.refclk false) ∧
  (∀ s ns, ns < 10000 → exec (.rstNPulse ns) s = .next s) ∧
  (∀ s, SMap.wf Xp.reset s.xps = true →
    ∃ t, exec .vddAonBrownout s = .next t ∧ PoweredUp s t ∧
      t.boot = bootAfter s.boot.rstN s.boot.refclk s.boot.thermtrip) ∧
  (∀ s ns, SMap.wf Xp.reset s.xps = true → 1000 ≤ ns →
    ∃ t, exec (.refclkCoreLoss ns) s = .next t ∧ PoweredUp s t ∧
      t.boot = bootAfter s.boot.rstN false s.boot.thermtrip) ∧
  (∀ s ns, ns < 1000 → exec (.refclkCoreLoss ns) s = .next s) ∧
  (∀ s, s.boot.refclk = false →
    exec .refclkCoreReturn s = .next { s with now := 0, boot := { s.boot with refclk := true, out := s.boot.rstN } })

/-- THERMTRIP and a lost lane reference stop what they stop, the noise test sets its bit, and JTAG shifts out its registers (R401, R342, R427, R435, R499, R503, notes/assumptions/2.md, notes/assumptions/43.md, notes/assumptions/50.md). -/
def Obligations.ThermalTripNoiseAndTestPins : Prop :=
  (∀ s, clocksRun s = true → SMap.wf Xp.reset s.xps = true →
    ∃ t, exec .thermtrip s = .next t ∧ t.boot = { s.boot with thermtrip := true, epbReady := 0, counters := false } ∧
      t.sw = Switch.reset ∧ t.ports = [] ∧ t.epbs = [] ∧ t.clusters = [] ∧ t.dev = [] ∧ t.ue = [] ∧ t.ce = [] ∧
      t.hbms = [] ∧ t.sill = Sillage.reset ∧
      t.cnt = Counters.reset ∧ (∀ n, t.xp n = { Xp.reset with mem := (s.xp n).mem }) ∧
      t.glob = s.glob ∧ t.sealCore = s.sealCore ∧ t.mgmt = s.mgmt ∧ t.sb = s.sb ∧ t.out = s.out ∧ t.now = s.now) ∧
  (∀ s (side : Fin 4), exec (.laneReferenceLoss side) s = .next (linkPoll (sideLost side s))) ∧
  (∀ s side n, side < 4 → (s.port n).state ≠ .disabled → n / 22 = side →
    ((sideLost side s).port n).state = .disabled ∧ ((sideLost side s).port n).failed = 15 ∧
    ∀ k, k < 4 → ((((sideLost side s).port n).lane k).lol = true ∧ (((sideLost side s).port n).lane k).locked = false)) ∧
  (∀ s side n, side < 4 → n / 22 ≠ side → ((sideLost side s).port n).state = (s.port n).state ∧
    ((sideLost side s).port n).failed = (s.port n).failed ∧ ((sideLost side s).port n).lanesOn = (s.port n).lanesOn) ∧
  (∀ s, s.boot.out = true →
    exec .noiseHealthFail s = .next { s with sealCore := { s.sealCore with noiseFail := true } }) ∧
  (∀ s, exec .noiseHealthPass s = .next { s with sealCore := { s.sealCore with noiseFail := false } }) ∧
  (∀ s, exec (.jtagInstruction .idcode) s = .next { s with out := .jtag 0x1960056B 32 :: s.out }) ∧
  (∀ s, exec (.jtagInstruction .bypass) s = .next { s with out := .jtag 0 1 :: s.out }) ∧
  (∀ s, exec (.jtagInstruction .other) s = .next { s with out := .jtag 0 1 :: s.out }) ∧
  (∀ s, s.sealCore.conf = true → exec (.jtagInstruction .boundary) s = .next { s with out := .jtag 0 1 :: s.out }) ∧
  (∀ s, s.sealCore.conf = false → exec (.jtagInstruction .boundary) s = .next
    { s with free := s.free + 1,
             out := .jtag (Config.freeValue s.free % 2 ^ Config.boundaryCells) Config.boundaryCells :: s.out })

/-- Each event of the power-up sequence makes its unit ready, with the state that rule gives it (R256, R257, R392, R426, R427, R428, R429, R447, R448, R449, notes/assumptions/42.md, notes/assumptions/68.md). -/
def Obligations.PowerUpCommandsBringUnitsUp : Prop :=
  (∀ s i q, s.boot.out = true → s.boot.state = 0 → s.sealCore.ready = false →
    exec (.sealFirmwareVerified (some i) q) s = .next
      { s with
        free := s.free + 1, boot := { s.boot with state := 2 },
        sealCore := { s.sealCore with
          ready := true, bnonce := leBytes 32 (Config.freeValue s.free),
          sealImage := { digest := fitBytes 64 i.digest, svn := i.svn % 2 ^ 32 } } }) ∧
  (∀ s i, s.boot.out = true → s.boot.state = 0 → s.sealCore.ready = false →
    exec (.sealFirmwareVerified none (some i)) s =
      exec (.sealFirmwareVerified (some i) none) { s with boot := { s.boot with copy := true } }) ∧
  (∀ s, s.boot.out = true → s.boot.state = 0 → s.sealCore.ready = false →
    exec (.sealFirmwareVerified none none) s = .next { s with boot := { s.boot with state := 1 } }) ∧
  (∀ s (code : Fin 4) (pass : BitVec 128), clocksRun s = true → s.boot.bistDone = false →
    ∃ t, exec (.bistComplete code pass) s = .next t ∧ 
      t = { s with boot := t.boot, power := t.power, clusters := mapAll Cluster.reset Cluster.bist s.clusters } ∧
      t.boot = { s.boot with
        bistDone := true, code := code, fault := gradeFault code pass.toNat, enabled := maskOf (enabledOf code pass.toNat),
        pass := pass.toNat, epbReady := 0xFFFF } ∧
      ∀ c k, c < 16 → k < 8 → c ∉ enabledOf code pass.toNat → t.domain (coreDom c k) = .off) ∧
  (∀ s (n : Fin 12) ok, clocksRun s = true → (s.hbm n).ready = false → (s.hbm n).fail = false →
    exec (.hbmTrainingComplete n ok) s =
      .next (sillSettle (s.modHbm n fun h => { h with ready := ok, fail := !ok }))) ∧
  (∀ s ok, s.sealCore.ready = true → s.sealCore.ident = false → s.sealCore.identFail = false →
    exec (.identityDerived ok) s = .next { s with sealCore := { s.sealCore with ident := ok, identFail := !ok } }) ∧
  (∀ s im, s.sealCore.ready = true → s.mgmt.up = false → s.mgmt.restarting = false → s.boot.state = 2 →
    exec (.stewardReleased im) s = .next (releaseMp im s)) ∧
  (∀ s (n : Fin 4) cap, s.mgmt.up = true → (s.xp n).linkUp = true → (s.xp n).devReady = false →
    exec (.xpEnumeration n (.type3 cap)) s =
      .next (sillSettle (setDomain (261 + n) .full (s.modXp n fun x => { x with devReady := true, reported := cap }))) ∧
    exec (.xpEnumeration n .unsupported) s = .next s) ∧
  (∀ s p10, clocksRun s = true → s.sw.ready = false →
    exec (.switchReady p10) s = .next (forEach (List.range 88) startTraining
      { s with
        sw := { s.sw with ready := true }, boot := { s.boot with counters := true },
        power := { s.power with running := true, p10 := p10, limit := p10 + 40 } })) ∧
  (∀ s (x : Fin 2) cfg, clocksRun s = true → (s.host x).perst = false →
    exec (.hostPortReady x cfg) s = .next (pciWrite x cfg (s.modHost x fun h => { h with ready := true })))

/-- A cluster is enabled only if its eight cores pass; the highest passing clusters go off until the code's number is off (R5). -/
def Obligations.GradeFollowsCodeAndBist : Prop :=
  ∀ (code : Fin 4) (pass : BitVec 128) (s : State), clocksRun s = true → s.boot.bistDone = false →
    let good := fun c => (List.range 8).all fun k => pass.getLsbD (8 * c + k)
    let failed := (filterBelow 16 fun c => !good c).length
    ∃ t, exec (.bistComplete code pass) s = .next t ∧
      (∀ c, c < 16 → bit t.boot.enabled c = true → ∀ k, k < 8 → pass.getLsbD (8 * c + k) = true) ∧
      (∀ w, (code = 1 ∧ w = 0) ∨ (code = 2 ∧ w = 2) →
        (w < failed → t.boot.fault = 1 ∧ ∀ c, c < 16 → bit t.boot.enabled c = good c) ∧
        (failed ≤ w → t.boot.fault = 0 ∧ (filterBelow 16 (bit t.boot.enabled)).length = 16 - w ∧
          ∀ c d, c < 16 → d < 16 → bit t.boot.enabled c = true → bit t.boot.enabled d = false → good d = true → c < d)) ∧
      ((code = 0 ∨ code = 3) → t.boot.fault = 2 ∧ t.boot.enabled = 0)

/-- Writes of POSITION, SLOT, PARTITION and the manager list put their fields where the state lets them (R18, R19, R294, R410, R482, R484, R485). -/
def Obligations.GlobalRegisterWrites : Prop :=
  (∀ p (v : Quad) s, pathOpen s p = true → p ≠ .steward → s.glob.state = .unconfigured → bits v.toNat 7 0 < 144 →
    exec (.positionWrite p v) s = .next (linkPoll
      { s with glob := { s.glob with position := bits v.toNat 7 0, positionValid := true } })) ∧
  (∀ p (v : Quad) s, pathOpen s p = true → (s.glob.state ≠ .unconfigured ∨ 144 ≤ bits v.toNat 7 0) →
    exec (.positionWrite p v) s = .next s) ∧
  (∀ p (v : Quad) s, pathOpen s p = true → p ≠ .steward →
    (s.glob.state = .unconfigured ∨ s.glob.state = .configured) → bits v.toNat 7 0 < 144 →
    exec (.slotWrite p v) s = .next (linkPoll
      { s with glob := { s.glob with slot := bits v.toNat 7 0, slotValid := true } })) ∧
  (∀ p (v : Quad) s, pathOpen s p = true → p.isFm = true → s.glob.state = .configured → bit v.toNat 8 = false →
    exec (.partitionWrite p v) s = .next (recomputeFences (advertise (some (bits v.toNat 5 0))
      { s with glob := { s.glob with part := some (bits v.toNat 5 0), sealed_ := bit v.toNat 7 } }))) ∧
  (∀ p (v : Quad) s, pathOpen s p = true → p.isFm = true → s.glob.state = .configured → bit v.toNat 8 = true →
    exec (.partitionWrite p v) s = .next (recomputeFences (advertise none
      { s with glob := { s.glob with part := none, sealed_ := false } }))) ∧
  (∀ p (v : Quad) s, pathOpen s p = true → p.isFm = true → s.glob.state ≠ .configured → bit v.toNat 8 = false →
    s.glob.part = some (bits v.toNat 5 0) → (bit v.toNat 7 = false ∨ anyTransit s = false) →
    exec (.partitionWrite p v) s = .next { s with glob := { s.glob with sealed_ := bit v.toNat 7 } }) ∧
  (∀ p (v : Quad) s, pathOpen s p = true → p.isFm = true → s.glob.state ≠ .configured →
    (bit v.toNat 8 = true ∨ s.glob.part ≠ some (bits v.toNat 5 0) ∨ (bit v.toNat 7 = true ∧ anyTransit s = true)) →
    exec (.partitionWrite p v) s = .next s) ∧
  (∀ x (v : Quad) s, pathOpen s (.hp x) = true → exec (.partitionWrite (.hp x) v) s = .next s) ∧
  (∀ n (v : Quad) s, exec (.positionWrite .steward v) s = .next s ∧ exec (.slotWrite .steward v) s = .next s ∧
    exec (.partitionWrite .steward v) s = .next s ∧ exec (.mgrListWrite .steward n v) s = .next s) ∧
  (∀ p n (v : Quad) s, pathOpen s p = true → p ≠ .steward → (bit v.toNat 12 = false ∨ bits v.toNat 11 0 / 16 ≤ 143) →
    exec (.mgrListWrite p n v) s = .next
      { s with glob := { s.glob with
          mgrs := SMap.set MgrEntry.reset s.glob.mgrs n
            { node := bits v.toNat 11 0, valid := bit v.toNat 12 } } })

/-- A request changes the package state only along a row of the table of R409, and otherwise sets REFUSED alone (R19, R294, R367, R387, R409, R411, R421, R437, notes/assumptions/76.md). -/
def Obligations.PackageStateFollowsTheTable : Prop :=
  (∀ p s, pathOpen s p = true → p ≠ .steward → s.glob.clearWait = false → s.glob.state = .unconfigured → s.placed = true →
    exec (.reqConfigured p) s = .next (linkPoll (enterState .configured s))) ∧
  (∀ p s, pathOpen s p = true → p.isFm = true → s.glob.clearWait = false → s.glob.state = .configured →
    s.glob.part.isSome = true → exec (.reqAssigned p) s = .next (recomputeFences (advertise s.glob.part (enterState .assigned s)))) ∧
  (∀ p s, pathOpen s p = true → p.isFm = true → s.glob.clearWait = false → s.glob.state = .fenced →
    exec (.reqAssigned p) s = .next (recomputeFences (advertise s.glob.part (enterState .assigned s)))) ∧
  (∀ p s, pathOpen s p = true → p.isFm = true → s.glob.clearWait = false → (s.glob.state = .assigned ∨ s.glob.state = .draining) →
    exec (.reqRunning p) s = .next (enterState .running s)) ∧
  (∀ p s, pathOpen s p = true → p.isFm = true → s.glob.clearWait = false → s.glob.state = .running →
    exec (.reqDraining p) s = .next (enterState .draining s)) ∧
  (∀ p s, pathOpen s p = true → p.isFm = true → s.glob.clearWait = false →
    (s.glob.state = .assigned ∨ s.glob.state = .running ∨ s.glob.state = .draining) →
    exec (.reqFenced p) s =
      .next (flushTransit (recomputeFences (advertise none (fenceEntry s.glob.state (enterState .fenced s)))))) ∧
  (∀ p s, pathOpen s p = true → p.isFm = true → s.glob.clearWait = false → s.glob.state = .fenced →
    exec (.reqClearing p) s = .next (settleClear { s with glob := { s.glob with clearWait := true } })) ∧
  (∀ s, s.glob.clearWait = true → updatesRun s = true → settleClear s = s) ∧
  (∀ s, s.glob.clearWait = true → updatesRun s = false →
    settleClear s = clearStart (enterState .clearing { s with glob := { s.glob with clearWait := false } })) ∧
  (∀ p s, pathOpen s p = true →
    let refused : Host.Outcome State Fault Refusal := .next { s with glob := { s.glob with refused := true } }
    (s.glob.clearWait = true → exec (.reqConfigured p) s = refused ∧ exec (.reqAssigned p) s = refused ∧
      exec (.reqRunning p) s = refused ∧ exec (.reqDraining p) s = refused ∧ exec (.reqFenced p) s = refused ∧
      exec (.reqClearing p) s = refused) ∧
    ((p = .steward ∨ s.glob.state ≠ .unconfigured ∨ s.placed = false) → exec (.reqConfigured p) s = refused) ∧
    ((p.isFm = false ∨ (s.glob.state ≠ .fenced ∧ (s.glob.state ≠ .configured ∨ s.glob.part = none))) →
      exec (.reqAssigned p) s = refused) ∧
    ((p.isFm = false ∨ (s.glob.state ≠ .assigned ∧ s.glob.state ≠ .draining)) → exec (.reqRunning p) s = refused) ∧
    ((p.isFm = false ∨ s.glob.state ≠ .running) → exec (.reqDraining p) s = refused) ∧
    ((p.isFm = false ∨ (s.glob.state ≠ .assigned ∧ s.glob.state ≠ .running ∧ s.glob.state ≠ .draining)) →
      exec (.reqFenced p) s = refused) ∧
    ((p.isFm = false ∨ s.glob.state ≠ .fenced) → exec (.reqClearing p) s = refused)) ∧
  (∀ new s, let t := enterState new s
    t.glob = { s.glob with state := new, changes := (s.glob.changes + 1) % 2 ^ 16 } ∧
    t = { s with glob := t.glob, hosts := t.hosts, out := t.out, power := t.power } ∧
    (s.glob.state ≠ .unconfigured → t.power = s.power))

/-- An accepted replay order counts and wakes every enabled core; Sillage's registers are written while it is off (R243, R263, R272). -/
def Obligations.ReplayOrderAndSillageRegisters : Prop :=
  (∀ p (v : Quad) s, pathOpen s p = true → p.isFm = true → (s.glob.state = .running ∨ s.glob.state = .draining) →
    s.glob.part = some (bits v.toNat 31 26) → 1 ≤ bits v.toNat 25 16 → bits v.toNat 25 16 ≤ 512 →
    exec (.replayOrder p v) s = .next
      (forEach (filterBelow 16 fun c => bit s.boot.enabled c)
        (fun c s => forEach (List.range 8) (fun k => wakeCore c k) s)
        (forEach (List.range 16) (replayEpb (bits v.toNat 15 0) (bits v.toNat 25 16))
          { s with glob := { s.glob with replaySeq := (s.glob.replaySeq + 1) % 2 ^ 32 } }))) ∧
  (∀ p (v : Quad) s, pathOpen s p = true → p.isFm = true →
    ((s.glob.state ≠ .running ∧ s.glob.state ≠ .draining) ∨ s.glob.part ≠ some (bits v.toNat 31 26) ∨
      bits v.toNat 25 16 = 0 ∨ 512 < bits v.toNat 25 16) →
    exec (.replayOrder p v) s = .next s) ∧
  (∀ p r (v : Quad) s, pathOpen s p = true → s.sill.en = true → exec (.sillConfigWrite p r v) s = .next s) ∧
  (∀ p (v : Quad) s, pathOpen s p = true → p ≠ .steward → s.sill.en = false → 10 ≤ bits v.toNat 26 22 → bits v.toNat 26 22 ≤ 22 →
    exec (.sillConfigWrite p 0 v) s = .next
      { s with sill := { s.sill with cptBase := bits v.toNat 21 0, cptLog2 := bits v.toNat 26 22 } }) ∧
  (∀ p (v : Quad) s, pathOpen s p = true → p ≠ .steward → s.sill.en = false → bits v.toNat 26 22 ≤ 20 → 1 ≤ bits v.toNat 63 54 →
    exec (.sillConfigWrite p 1 v) s = .next
      { s with sill := { s.sill with
          pgtBase := bits v.toNat 21 0, pgtLog2 := bits v.toNat 26 22, wearBase := bits v.toNat 53 32,
          wearDelta := inRange 1 1023 (bits v.toNat 63 54) s.sill.wearDelta } }) ∧
  (∀ p (v : Quad) s, pathOpen s p = true → p ≠ .steward → s.sill.en = false → bits v.toNat 18 0 ≤ bits v.toNat 50 32 →
    exec (.sillConfigWrite p 2 v) s = .next
      { s with sill := { s.sill with first := bits v.toNat 18 0, last := bits v.toNat 50 32 } }) ∧
  (∀ p (v : Quad) s, pathOpen s p = true → p ≠ .steward → ∃ t, exec (.sillCtrlWrite p v) s = .next t ∧ t = { s with sill := t.sill } ∧
    t.sill.cluster = bits v.toNat 4 1 ∧ t.sill.te = bits v.toNat 7 5 ∧ t.sill.low = bits v.toNat 39 20 ∧
    t.sill.high = bits v.toNat 59 40 ∧
    (s.sill.en = false → bit v.toNat 0 = false → t.sill.en = false) ∧
    (s.sill.en = false → t.sill.en = true → sillPlaced t.sill = true ∧ t.sill.frames = []) ∧
    (s.sill.en = true → (t.sill.en = false ↔ bit v.toNat 0 = false ∧ s.sill.moves = [])))

/-- Writes of the routing, multicast and epoch registers, the reserves, transit and mirror settings obey their checks (R285, R286, R288, R302, R316, R320, R480, R482). -/
def Obligations.SwitchTableWrites : Prop :=
  (∀ p (ver : Fin 2) i (v : Quad) s, pathOpen s p = true → p.isFm = true → s.sw.ready = true → versionOpen s ver = true →
    (bit v.toNat 0 = true → i.val < 144 ∧ bits v.toNat 8 1 < 144 ∧ bits v.toNat 17 16 ≠ 3 ∧
      (bit v.toNat 10 = true → bits v.toNat 15 11 < 22)) →
    exec (.routeWrite p ver i v) s = .next
      { s with sw := { s.sw with
          routes := SMap.set RouteEntry.reset s.sw.routes (256 * ver + i)
            { valid := bit v.toNat 0, dpos := bits v.toNat 8 1, adapt := bit v.toNat 9, expl := bit v.toNat 10,
              next := bits v.toNat 15 11, order := bits v.toNat 17 16 } } }) ∧
  (∀ p (ver : Fin 2) i (v : Quad) s, pathOpen s p = true → p.isFm = true → s.sw.ready = true → versionOpen s ver = false →
    exec (.routeWrite p ver i v) s = .next s) ∧
  (∀ p (ver : Fin 2) (g : Fin 4096) (v : Quad) s, pathOpen s p = true → p.isFm = true → s.sw.ready = true → versionOpen s ver = true →
    exec (.mcastWrite p ver g 1 v) s = .next (stage (0x820008 + 0x10000 * ver + 16 * g) v.toNat s)) ∧
  (∀ p (ver : Fin 2) (g : Fin 4096) (v : Quad) s, pathOpen s p = true → p.isFm = true → s.sw.ready = true → versionOpen s ver = true →
    let key := 0x820000 + 0x10000 * ver.val + 16 * g.val
    let w := wideOf s key v.toNat (mcastWord (mcastAt s.sw ver g)) 1
    (bit w 0 = true → bits w 18 7 ≠ 0 ∧ bits w 18 7 ≤ 2304) →
    exec (.mcastWrite p ver g 0 v) s = .next ((unstage key s).modSw fun x =>
      { x with
          mcast := SMap.set McastEntry.reset x.mcast (4096 * ver + g)
            { valid := bit w 0, part := bits w 6 1, mcount := bits w 18 7, loc := bits w 34 19, root := bits w 56 35,
              row := bits w 85 64, col := bits w 107 86 } })) ∧
  (∀ p (v : Quad) s, pathOpen s p = true → p.isFm = true → s.sw.ready = true →
    exec (.epochWrite p v) s = .next
      (if v.toNat % 2 = s.sw.epoch then s else { s with sw := { s.sw with epoch := v.toNat % 2, drained := false } })) ∧
  (∀ s, exec .epochDrainExpiry s = .next { s with sw := { s.sw with drained := true } }) ∧
  (∀ p vc (v : Quad) s, pathOpen s p = true → p ≠ .steward → s.sw.ready = true → s.glob.state = .unconfigured →
    17 ≤ bits v.toNat 10 0 → bits v.toNat 10 0 ≤ 1024 →
    104 * ((List.range 8).map fun i => if i = vc.val then bits v.toNat 10 0 else SMap.get 0 s.sw.gmin i).foldl (· + ·) 0
      ≤ 65536 →
    exec (.gminWrite p vc v) s = .next
      { s with sw := { s.sw with gmin := SMap.set 0 s.sw.gmin vc (bits v.toNat 10 0) } }) ∧
  (∀ p (v : Quad) s, pathOpen s p = true → p.isFm = true → s.sw.ready = true → anyTransit s = false →
    16 ≤ bits v.toNat 8 0 → bits v.toNat 8 0 ≤ 256 → 1 ≤ bits v.toNat 22 16 →
    bits v.toNat 22 16 ≤ bits v.toNat 8 0 / 4 →
    exec (.transitCfgWrite p v) s = .next
      { s with sw := { s.sw with tperiod := bits v.toNat 8 0, tslots := bits v.toNat 22 16 } }) ∧
  (∀ p (v : Quad) s, pathOpen s p = true → p.isFm = true → s.sw.ready = true →
    bits v.toNat 16 1 ≠ 0 → bits v.toNat 18 17 ≠ 3 → bits v.toNat 26 20 ≤ 103 →
    exec (.mirrorCfgWrite p v) s = .next
      { s with sw := { s.sw with
          matched := 0,
          mirror := { en := bit v.toNat 0, n := bits v.toNat 16 1, trunc := bits v.toNat 18 17, all := bit v.toNat 19,
                      input := bits v.toNat 26 20, vcmask := bits v.toNat 34 27, redOnly := bit v.toNat 35 } } })

/-- A shaper's or policer's accepted parameters wait for the next commit boundary and then replace the old ones (R312, R313, R480). -/
def Obligations.ShaperAndPolicerWrites : Prop :=
  (∀ p (o : Fin 104) (vc : Fin 6) (v : Quad) s, Writable s p (.shape o (vc + 1) 0) →
    let key := stageKey p (0x850000 + 0x80 * o + 0x10 * vc)
    let w := wideOf s key v.toNat (bucketWord (shaperAt s.sw o (vc + 1)).coming) 1
    exec (.shapeWrite p o vc 1 v) s =
      .next (stage (stageKey p (0x850008 + 0x80 * o + 0x10 * vc)) v.toNat s) ∧
    ∃ t, exec (.shapeWrite p o vc 0 v) s = .next t ∧
      t = { s with glob := (unstage key s).glob, sw := { s.sw with shapers := t.sw.shapers } } ∧
      (SMap.wf Bucket.reset s.sw.shapers = true →
        (∀ i, i ≠ 8 * o.val + (vc.val + 1) → SMap.get Bucket.reset t.sw.shapers i = SMap.get Bucket.reset s.sw.shapers i) ∧
        shaperAt t.sw o (vc + 1) = { shaperAt s.sw o (vc + 1) with
          commit := if bucketOk false (bucketOf w) then some (bucketOf w) else (shaperAt s.sw o (vc + 1)).commit })) ∧
  (∀ p (i : Fin 104) (c : Fin 2) (v : Quad) s, Writable s p (.pol i c 0) →
    let key := stageKey p (0x840000 + 0x20 * i + 0x10 * c)
    let w := wideOf s key v.toNat (bucketWord (policerAt s.sw i c).coming) 1
    exec (.polWrite p i c 1 v) s = .next (stage (stageKey p (0x840008 + 0x20 * i + 0x10 * c)) v.toNat s) ∧
    ∃ t, exec (.polWrite p i c 0 v) s = .next t ∧
      t = { s with glob := (unstage key s).glob, sw := { s.sw with policers := t.sw.policers } } ∧
      (SMap.wf Bucket.reset s.sw.policers = true →
        (∀ j, j ≠ 2 * i.val + c.val → SMap.get Bucket.reset t.sw.policers j = SMap.get Bucket.reset s.sw.policers j) ∧
        policerAt t.sw i c = { policerAt s.sw i c with
          commit := if bucketOk true (bucketOf w) then some (bucketOf w) else (policerAt s.sw i c).commit })) ∧
  (∀ o vc s, ∃ t, exec (.shaperCommit o vc) s = .next t ∧ t = { s with sw := { s.sw with shapers := t.sw.shapers } } ∧
    (SMap.wf Bucket.reset s.sw.shapers = true → ∀ c, (shaperAt s.sw o (vc + 1)).commit = some c →
      (shaperAt t.sw o (vc + 1)).cfg = c ∧ (shaperAt t.sw o (vc + 1)).commit = none ∧
      (shaperAt t.sw o (vc + 1)).c ≤ c.cb * 1024 ∧ (shaperAt t.sw o (vc + 1)).p ≤ c.pb * 1024)) ∧
  (∀ i c s, ∃ t, exec (.policerCommit i c) s = .next t ∧ t = { s with sw := { s.sw with policers := t.sw.policers } } ∧
    (SMap.wf Bucket.reset s.sw.policers = true → ∀ b, (policerAt s.sw i c).commit = some b →
      (policerAt t.sw i c).cfg = b ∧ (policerAt t.sw i c).commit = none ∧
      (policerAt t.sw i c).c ≤ b.cb * 1024 ∧ (policerAt t.sw i c).p ≤ b.pb * 1024))

/-- Writes of FENCE, TRANSIT, CTRL and TEST of a port do to it what their rules say (R29, R294, R295, R299, R337, R347, R348, R384, R387, R482). -/
def Obligations.PortRegisterWrites : Prop :=
  let on := fun (n : Nat) (s : State) => if s.domain (portDom n) = .off then setDomain (portDom n) .full s else s
  (∀ p (n : Fin 88) (v : Quad) s, pathOpen s p = true → p.isFm = true → s.sw.ready = true →
    exec (.fenceWrite p n v) s =
      .next (recomputeFence n (s.modPort n fun q => { q with force := bit v.toNat 0 }))) ∧
  (∀ p (n : Fin 88) (v : Quad) s, pathOpen s p = true → p.isFm = true → s.sw.ready = true →
    let put := fun m => flushTransit (s.modPort n fun q =>
      { q with tmode := m, tpart := bits v.toNat 7 2, tout := bits v.toNat 14 8 })
    (s.glob.sealed_ = true → exec (.transitWrite p n v) s = .next s) ∧
    (s.glob.sealed_ = false → bits v.toNat 1 0 = 0 → exec (.transitWrite p n v) s = .next (put .none)) ∧
    (s.glob.sealed_ = false → bits v.toNat 1 0 = 1 → bits v.toNat 14 8 ≤ 87 →
      exec (.transitWrite p n v) s = .next (wakeDomain switchDom (put .through))) ∧
    (s.glob.sealed_ = false → bits v.toNat 1 0 = 2 → s.glob.part = some (bits v.toNat 7 2) →
      exec (.transitWrite p n v) s = .next (wakeDomain switchDom (put .edge)))) ∧
  (∀ p (n : Fin 88) s, pathOpen s p = true → p.isFm = true → s.sw.ready = true → (s.port n).en = true →
    1 ≤ (s.port n).maxVer → (s.port n).maxVer ≤ 3 → (s.port n).loop ≤ 3 → SMap.wf Port.reset s.ports = true →
    exec (.retrain p n) s = .next (startTraining n (portGoDown n .disabled (on n s)))) ∧
  (∀ p (n : Fin 88) s, pathOpen s p = true → p.isFm = true → s.sw.ready = true → (s.port n).en = false →
    1 ≤ (s.port n).maxVer → (s.port n).maxVer ≤ 3 → (s.port n).loop ≤ 3 → SMap.wf Port.reset s.ports = true →
    exec (.portEn p n true) s =
      .next (startTraining n (portGoDown n .disabled (on n (s.modPort n fun q => { q with en := true }))))) ∧
  (∀ p (n : Fin 88) s, pathOpen s p = true → p.isFm = true → s.sw.ready = true → (s.port n).en = true →
    1 ≤ (s.port n).maxVer → (s.port n).maxVer ≤ 3 → (s.port n).loop ≤ 3 → SMap.wf Port.reset s.ports = true →
    exec (.portEn p n false) s =
      .next ((portGoDown n .disabled (setDomain (portDom n) .off (s.modPort n fun q => { q with en := false }))).modPort n fun q =>
        [0, 1, 2, 3].foldl (fun q k => q.modLane k fun l => { l with ts := .idle, locked := false })
          { q with lanesOn := 0, version := 0 })) ∧
  (∀ p (n : Fin 88) m s, pathOpen s p = true → p.isFm = true → s.sw.ready = true → (s.port n).en = true → (s.port n).force = true →
    (s.port n).loop ≠ m.val → 1 ≤ (s.port n).maxVer → (s.port n).maxVer ≤ 3 → SMap.wf Port.reset s.ports = true →
    exec (.loop p n m) s =
      .next (startTraining n (portGoDown n .disabled (on n (s.modPort n fun q => { q with loop := m }))))) ∧
  (∀ p (n : Fin 88) (v : Quad) s, pathOpen s p = true → p.isFm = true → s.sw.ready = true →
    let t := s.modPort n fun q => { q with testGen := bit v.toNat 0, testChk := bit v.toNat 1, testPattern := bits v.toNat 3 2 }
    ((s.port n).testGen = false → bit v.toNat 0 = true → 
      exec (.testPattern p n v) s = .next ((portGoDown n .test t).emit (.pattern n (bits v.toNat 3 2) true))) ∧
    ((s.port n).testGen = true → bit v.toNat 0 = false → exec (.testPattern p n v) s =
      .next ((t.modPort n fun q => { q with state := .disabled }).emit (.pattern n (s.port n).testPattern false))) ∧
    ((s.port n).testGen = bit v.toNat 0 → ((s.port n).testGen = false ∨ (s.port n).testPattern = bits v.toNat 3 2) →
      exec (.testPattern p n v) s = .next t) ∧
    ((s.port n).testGen = true → bit v.toNat 0 = true → (s.port n).testPattern ≠ bits v.toNat 3 2 →
      exec (.testPattern p n v) s = .next (t.emit (.pattern n (bits v.toNat 3 2) true))))

/-- A tail doorbell is accepted if its distance from the head lies between the old tail's and the ring's size, else refused (R357). -/
def Obligations.TailDoorbellAcceptsByDistance : Prop :=
  ∀ (x : Fin 2) (r : Fin 256) (v : BitVec 32) (d : List Byte) (s : State), hostCan s x = true →
    ((s.host x).sqAt r).en = true → d.length = 4 → leVal d = v.toNat →
    let q := (s.host x).sqAt r
    let dOld := (q.tail + 2 ^ 32 - q.head) % 2 ^ 32
    let dNew := (v.toNat + 2 ^ 32 - q.head) % 2 ^ 32
    (dOld ≤ dNew → dNew ≤ 2 ^ q.log2 →
      exec (.tailDoorbell x r 0 d) s = .next (s.modSq x r fun q => { q with tail := v.toNat })) ∧
    ((dNew < dOld ∨ 2 ^ q.log2 < dNew) →
      exec (.tailDoorbell x r 0 d) s =
        .next (doorbellEvent x r 0 v.toNat (s.modSq x r fun q => { q with dbRange := true })) ∧
      ∃ t, exec (.tailDoorbell x r 0 d) s = .next t ∧ t = { s with glob := s.glob, hosts := t.hosts, out := t.out } ∧
        (SMap.wf HostPort.reset s.hosts = true → SMap.wf Sq.reset (s.host x).sq = true →
          (t.host x).sqAt r = { q with dbRange := true }))

/-- A head doorbell of a CQ, the EQ or the FQ is accepted between the old head and the tail, else refused as R357 has it (R356, R358). -/
def Obligations.HeadDoorbellAcceptsUpToTail : Prop :=
  ∀ (x : Fin 2) (v : BitVec 32) (s : State), hostCan s x = true →
    let far := fun (head tail : Nat) => (tail + 2 ^ 32 - head) % 2 ^ 32
    (∀ r : Fin 256, ((s.host x).cqAt r).en = true →
      let q := (s.host x).cqAt r
      (far q.head v.toNat ≤ far q.head q.tail →
        exec (.headDoorbell x (.cq r) v) s = .next (s.modCq x r fun q => { q with head := v.toNat })) ∧
      (far q.head q.tail < far q.head v.toNat →
        exec (.headDoorbell x (.cq r) v) s =
          .next (doorbellEvent x r 1 v.toNat (s.modCq x r fun q => { q with dbRange := true })))) ∧
    (∀ fq : Bool, ((s.host x).rq fq).en = true →
      let q := (s.host x).rq fq
      let ring : RingRef := if fq then .fq else .eq
      (far q.head v.toNat ≤ far q.head q.tail →
        exec (.headDoorbell x ring v) s = .next (s.modRq fq x fun q => { q with head := v.toNat })) ∧
      (far q.head q.tail < far q.head v.toNat →
        exec (.headDoorbell x ring v) s =
          .next (doorbellEvent x 0 (if fq then 3 else 2) v.toNat (s.modRq fq x fun q => { q with dbRange := true })))) ∧
    (∀ (r : Fin 256) d, ((s.host x).sqAt r).en = false → d.length = 4 → exec (.tailDoorbell x r 0 d) s =
      .next (s.modHost x fun h => { h with dbErr := cnt32 h.dbErr })) ∧
    (∀ (r : Fin 256) (off : BitVec 12) d, (d.length ≠ 4 ∨ (off ≠ 0 ∧ off ≠ 0x40 ∧ (r ≠ 0 ∨ (off ≠ 0x80 ∧ off ≠ 0xC0)))) →
      exec (.tailDoorbell x r off d) s = .next (s.modHost x fun h => { h with dbErr := cnt32 h.dbErr })) ∧
    (∀ r : Fin 256, ((s.host x).cqAt r).en = false → exec (.headDoorbell x (.cq r) v) s =
      .next (s.modHost x fun h => { h with dbErr := cnt32 h.dbErr }))

/-- Enabling a ring commits its fields, with head and tail zero; disabling clears EN, of a CQ only once nothing names it (R355, R359, R377, R449, R480). -/
def Obligations.RingEnableAndDisable : Prop :=
  (∀ (x : Fin 2) (r : Fin 256) (v : Quad) s, hostCan s x = true →
    let key := 0x110000 + 0x20 * r.val + (x.val + 1) * 2 ^ 26
    let q := (s.host x).sqAt r
    let on := q.fields (wideOf s key (v.toNat / 2 * 2 + 1) (sqWord q) 1)
    let off := q.fields (wideOf s key (v.toNat / 2 * 2) (sqWord q) 1)
    (q.en = false → sqMay (unstage key s) x on = true →
      exec (.ringEnable x (.sq r) v) s = .next (((unstage key s).modSq x r fun _ =>
        { on with en := true, head := 0, tail := 0, stopped := false }).modHost x fun h =>
          { h with enables := h.enables + 1 })) ∧
    (q.en = true → exec (.ringEnable x (.sq r) v) s = .next (unstage key s)) ∧
    (q.en = true → exec (.ringDisable x (.sq r) v) s =
      .next ((unstage key s).modSq x r fun q => { q with en := false })) ∧
    (q.en = false → exec (.ringDisable x (.sq r) v) s = .next ((unstage key s).modSq x r fun _ => off))) ∧
  (∀ (x : Fin 2) (r : Fin 256) (v : Quad) s, hostCan s x = true →
    let key := 0x120000 + 0x20 * r.val + (x.val + 1) * 2 ^ 26
    let q := (s.host x).cqAt r
    let on := q.fields (wideOf s key (v.toNat / 2 * 2 + 1) (cqWord q) 1)
    (q.en = false → 4 ≤ on.log2 → on.log2 ≤ 16 →
      exec (.ringEnable x (.cq r) v) s = .next ((unstage key s).modCq x r fun _ =>
        { on with en := true, head := 0, tail := 0, phase := true, unsig := 0 })) ∧
    (q.en = true → (∀ i j, (i, j) ∈ (s.host x).sq → j.en = true → j.cq ≠ r.val) → q.owed = 0 →
      exec (.ringDisable x (.cq r) v) s = .next ((unstage key s).modCq x r fun q => { q with en := false })) ∧
    (q.en = true → q.owed ≠ 0 → exec (.ringDisable x (.cq r) v) s = .next (unstage key s))) ∧
  (∀ (x : Fin 2) (fq : Bool) (v : Quad) s, hostCan s x = true →
    let ring : RingReg := if fq then .fq else .eq
    let key := (if fq then 0x100120 else 0x100100) + (x.val + 1) * 2 ^ 26
    let q := (s.host x).rq fq
    let on := q.fields (wideOf s key (v.toNat / 2 * 2 + 1) (rqWord q) 1)
    (q.en = false → 4 ≤ on.log2 → on.log2 ≤ 16 →
      exec (.ringEnable x ring v) s = .next ((unstage key s).modRq fq x fun _ =>
        { on with en := true, head := 0, tail := 0, phase := true, seq := 0 })) ∧
    (q.en = true → exec (.ringDisable x ring v) s =
      .next ((unstage key s).modRq fq x fun q => { q with en := false })))

/-- A DAS root, a Lens descriptor and an expansion port's settings take their fields where their rules let them (R41, R58, R59, R60, R66, R251, R480). -/
def Obligations.DasRootLensAndExpansionWrites : Prop :=
  (∀ (x : Fin 2) (n : Fin 16) (v : Quad) s, hostCan s x = true → beforeRunning s = true →
    (bit v.toNat 0 = true → bits v.toNat 42 21 < 0x60000) →
    ∃ t, exec (.dasRootWrite x n v) s = .next t ∧
      t = { s with
        glob := { s.glob with
          dasValid := SMap.set false s.glob.dasValid n (bit v.toNat 0),
          dasRoot := SMap.set 0 s.glob.dasRoot n (bits v.toNat 42 21) },
        clusters := t.clusters } ∧
      (SMap.wf Cluster.reset s.clusters = true → ∀ c, t.cluster c =
        { s.cluster c with tlb := (s.cluster c).tlb.filter fun e => e.das != n.val })) ∧
  (∀ (x : Fin 2) (n : Fin 16) (v : Quad) s, hostCan s x = true →
    (beforeRunning s = false ∨ (bit v.toNat 0 = true ∧ 0x60000 ≤ bits v.toNat 42 21)) →
    exec (.dasRootWrite x n v) s = .next s) ∧
  (∀ (x : Fin 2) (e : Fin 16) (w : Fin 4096) (v : Quad) s, hostCan s x = true → bit s.boot.epbReady e = true →
    let key := 0x1800000 + 0x40000 * e.val + 0x20 * w.val
    let old := LensDesc.at_w s e w
    let word := wideOf s key v.toNat (descVal old) 3
    ((s.glob.state = .unconfigured ∨ s.glob.state = .configured) →
      (∀ q : Fin 4, q ≠ 0 → exec (.lensDescriptorWrite x e w q v) s = .next (stage (key + 8 * q) v.toNat s)) ∧
      exec (.lensDescriptorWrite x e w 0 v) s = .next ((unstage key s).modEpb e fun b =>
        { b with
          lens := SMap.set LensDesc.reset b.lens w
            { descOf word with wgen := old.wgen, valid := bit word 0 && descOk (unstage key s) word },
          byWrite := SMap.set 0 b.byWrite w (1 + x), cache := b.cache.filter fun c => c.window != w.val })) ∧
    (s.glob.state ≠ .unconfigured → s.glob.state ≠ .configured →
      exec (.lensDescriptorWrite x e w 0 v) s = .next (unstage key s))) ∧
  (∀ (x : Fin 2) (n : Fin 4) (v : Quad) s, hostCan s x = true → (s.xp n).devReady = true →
    let t := s.modXp n fun p => { p with en := bit v.toNat 0, tier := bits v.toNat 2 1, direct := bits v.toNat 28 16 }
    let total := fun i => ((filterBelow 4 fun m => (t.xp m).tierOf m == i).map fun m => (t.xp m).direct).foldl (· + ·) 0
    ((s.glob.state = .unconfigured ∨ s.glob.state = .configured) → parkedOn s n = 0 →
      1 ≤ bits v.toNat 2 1 → bits v.toNat 2 1 ≤ 2 → (t.xp n).direct ≤ usableGib t n → total 1 ≤ 512 → total 2 ≤ 4096 →
      exec (.xpConfigWrite x n v) s = .next t) ∧
    ((s.glob.state ≠ .unconfigured ∧ s.glob.state ≠ .configured) → exec (.xpConfigWrite x n v) s = .next s))

/-- TAKE, the automatic takeover and SIDEBAND.ROLE move the main role only to a port whose link is up (R373, R376, R379, R462). -/
def Obligations.RolesMoveBetweenHostPorts : Prop :=
  let moved := fun (s : State) (x : Nat) (auto : Bool) =>
    let t := (s.modHost (1 - x) fun h => { h with main := false }).modHost x fun h => { h with main := true }
    flushHeld x (eventRecord x (mkRecord t 0x02 0 7 0 0 [] (leBytes 1 x ++ leBytes 1 (b2n auto))) t)
  (∀ (x : Fin 2) s, hostCan s x = true → (s.host x).main = false → 10 ≤ (s.host x).hold → (s.host x).hold ≤ 1000 →
    SMap.wf HostPort.reset s.hosts = true →
    (((s.host (1 - x.val)).allow = true ∨ (s.host (1 - x.val)).linkUp = false) → exec (.take x) s = .next (moved s x false)) ∧
    ((s.host (1 - x.val)).allow = false → (s.host (1 - x.val)).linkUp = true → exec (.take x) s = .next s)) ∧
  (∀ s, let x := 1 - s.mainPort
    (s.host x).main = false → (s.host x).auto = true → (s.host x).linkUp = true →
    ((s.host s.mainPort).linkUp = false ∨ (s.host s.mainPort).perst = true) →
    exec .autoTakeover s = .next (moved s x true)) ∧
  (∀ p (x : Fin 2) s, pathOpen s p = true → p.isFm = true → (s.host x).linkUp = true → (s.host x).main = false →
    exec (.role p x) s = .next (moved s x false)) ∧
  (∀ p (x : Fin 2) s, pathOpen s p = true → p.isFm = true → (s.host x).linkUp = false →
    exec (.role p x) s = .next { s with sb := { s.sb with discard := cnt16 s.sb.discard } })

/-- Writes of the caps, WARN, ORPHAN, HEARTBEAT and BIAS take their fields, and a lower cap lowers the limit at once (R389, R391, R392, R396, R397, R425, R482). -/
def Obligations.PowerRegisterWrites : Prop :=
  (∀ p (v : Quad) s, pathOpen s p = true → p ≠ .steward → exec (.capHostWrite p v) s =
    .next (lowerLimit { s with power := { s.power with capHost := some (bits v.toNat 11 0) } })) ∧
  (∀ p (v : Quad) s, pathOpen s p = true → p.isFm = true → exec (.capRackWrite p v) s =
    .next (lowerLimit { s with power := { s.power with capRack := some (bits v.toNat 11 0) } })) ∧
  (∀ p (v : Quad) s, pathOpen s p = true → p.isFm = true → exec (.warnWrite p v) s =
    .next (lowerLimit { s with power := { s.power with warnCap := bits v.toNat 11 0, warnDuty := bits v.toNat 15 12 } })) ∧
  (∀ p (v : Quad) s, pathOpen s p = true → p.isFm = true → exec (.orphanWrite p v) s =
    .next (judgeOrphan { s with power := { s.power with
      orphanCap := bits v.toNat 11 0,
      silence := if 5 ≤ bits v.toNat 18 12 ∧ bits v.toNat 18 12 ≤ 100 then bits v.toNat 18 12 else s.power.silence } })) ∧
  (∀ p (v : Quad) s, pathOpen s p = true → p.isFm = true → (bit v.toNat 0 = true ∨ bit v.toNat 1 = true) →
    exec (.heartbeat p v) s = .next { s with power := { s.power with
      beat0 := if bit v.toNat 0 then 1 + s.now else s.power.beat0,
      beat1 := if bit v.toNat 1 then 1 + s.now else s.power.beat1, armed := true, orphan := false } }) ∧
  (∀ p (n : Fin 4) (v : Quad) s, pathOpen s p = true → p ≠ .steward → s.glob.state = .unconfigured →
    ¬(4 ≤ bits v.toNat 3 0 ∧ bits v.toNat 3 0 ≤ 7) → ¬(4 ≤ bits v.toNat 7 4 ∧ bits v.toNat 7 4 ≤ 7) →
    exec (.biasWrite p n v) s =
      .next { s with power := { s.power with bias := SMap.set 0 s.power.bias n (bits v.toNat 16 0) } }) ∧
  (∀ p (n : Fin 4) (v : Quad) s, pathOpen s p = true → p ≠ .steward → s.glob.state ≠ .unconfigured →
    exec (.biasWrite p n v) s = .next s) ∧
  (∀ (x : Fin 2) (v : Quad) s, hostCan s x = true →
    exec (.capRackWrite (.hp x) v) s = .next s ∧ exec (.warnWrite (.hp x) v) s = .next s ∧
    exec (.orphanWrite (.hp x) v) s = .next s ∧ exec (.heartbeat (.hp x) v) s = .next s) ∧
  (∀ (v : Quad) s, s.mgmt.up = true →
    exec (.capHostWrite .steward v) s = .next s ∧ exec (.heartbeat .steward v) s = .next s ∧
    exec (.orphanWrite .steward v) s =
      .next { s with sealCore := { s.sealCore with blocked := cnt16 s.sealCore.blocked } }) ∧
  (∀ s, s.power.armed = true → silent s = true →
    ∃ t, judgeOrphan s = lowerLimit { s with power := { s.power with orphan := true, evOrphan := true }, out := t }) ∧
  (∀ s, (s.power.armed = false ∨ silent s = false) →
    judgeOrphan s = lowerLimit { s with power := { s.power with orphan := false } }) ∧
  (∀ s, lowerLimit s = { s with power := { s.power with limit := min s.power.limit (effCap s) } })

/-- CHAIN, CLEAR and SNAP act on the counters their bits name, and a snapshot copies each requested island once, in order (R434, R466, R467, R472, R473). -/
def Obligations.CountersChainClearAndSnapshot : Prop :=
  (∀ (x : Fin 2) (v : Quad) s, hostCan s x = true → s.boot.counters = true → s.sealCore.conf = false →
    ∃ t, exec (.chainWrite (.hp x) v) s = .next t ∧ t.cnt.chain = v.toNat % 2 ^ 60 ∧
      t = { s with cnt := { s.cnt with
        chain := t.cnt.chain, core := t.cnt.core, epb := t.cnt.epb, hbm := t.cnt.hbm, port := t.cnt.port } } ∧
      ∀ k u i, i < CKind.per k → SMap.get Counter.reset (t.cnt.bank k) (k.per * u + i) =
        if bit (s.cnt.chain ^^^ (v.toNat % 2 ^ 60)) (k.chainLo + i / 2) then Counter.reset
        else SMap.get Counter.reset (s.cnt.bank k) (k.per * u + i)) ∧
  (∀ (x : Fin 2) s, hostCan s x = true → s.boot.counters = true → s.sealCore.conf = false →
    exec (.countersClearCore (.hp x)) s = .next { s with cnt := { s.cnt with core := [] } } ∧
    exec (.countersClearEpb (.hp x)) s = .next { s with cnt := { s.cnt with epb := [] } } ∧
    exec (.countersClearHbm (.hp x)) s = .next { s with cnt := { s.cnt with hbm := [] } }) ∧
  (∀ (x : Fin 2) (v : Quad) s, hostCan s x = true → s.boot.counters = true → s.sealCore.conf = true →
    exec (.chainWrite (.hp x) v) s = .next s ∧ exec (.countersClearCore (.hp x)) s = .next s ∧
    exec (.countersClearEpb (.hp x)) s = .next s ∧ exec (.countersClearHbm (.hp x)) s = .next s) ∧
  (∀ p (m : BitVec 4) s, pathOpen s p = true → p ≠ .steward → (p.isFm = true ∨ s.boot.counters = true) →
    s.cnt.busy = false → m ≠ 0 →
    exec (.snap p m) s = .next { s with cnt := { s.cnt with busy := true, todo := m.toNat } }) ∧
  (∀ p (m : BitVec 4) s, pathOpen s p = true → p ≠ .steward → (p.isFm = true ∨ s.boot.counters = true) →
    s.cnt.busy = true →
    exec (.snap p m) s = .next s) ∧
  (∀ (i : Fin 4) s, s.cnt.busy = true → bit s.cnt.todo i = true → s.cnt.todo % 2 ^ i.val = 0 →
    ∃ t, exec (.snapshotIslandCopy i) s = .next t ∧ t = { s with cnt := t.cnt } ∧
      t.cnt = { (s.cnt.setSnapBank (islandKind i) (s.cnt.bank (islandKind i))) with
        todo := s.cnt.todo - 2 ^ i.val, times := SMap.set 0 s.cnt.times i s.now }) ∧
  (∀ (i : Fin 4) s, (s.cnt.busy = false ∨ s.cnt.todo % 2 ^ i.val ≠ 0) → exec (.snapshotIslandCopy i) s = .next s) ∧
  (∀ s, s.cnt.busy = true → s.cnt.todo = 0 →
    exec .snapshotComplete s = .next { s with cnt := { s.cnt with busy := false, seq := (s.cnt.seq + 1) % 2 ^ 32 } })

/-- Registers are written and read by whole quadwords; partial writes and holes are counted, and early accesses too (R425, R450, R458, R477, R478, R482). -/
def Obligations.RegisterAccessByQuadword : Prop :=
  (∀ p (a : BitVec 26) (d : List Byte) s, pathOpen s p = true → (isMsix a.toNat = false ∨ p.isFm = true) →
    a.toNat % 8 = 0 → d.length = 8 →
    exec (.registerWrite p a d) s = .next (regWrite p a.toNat (leVal d) s)) ∧
  (∀ p (a : BitVec 26) (d : List Byte) s, pathOpen s p = true → (isMsix a.toNat = false ∨ p.isFm = true) →
    0 < d.length → a.toNat + d.length ≤ 2 ^ 26 → (a.toNat % 8 ≠ 0 ∨ d.length % 8 ≠ 0) →
    exec (.registerWrite p a d) s = .next (noteAccess p a.toNat true s)) ∧
  (∀ (x : Fin 2) (a : BitVec 26) (d e : List Byte) s, hostCan s x = true → isMsix a.toNat = false →
    isMsix (a.toNat + 8) = false → a.toNat % 8 = 0 → a.toNat + 16 ≤ 2 ^ 26 → d.length = 8 → e.length = 8 →
    ∃ t u, quadWrite (.hp x) a.toNat (leVal d) s = some t ∧ quadWrite (.hp x) (a.toNat + 8) (leVal e) t = some u ∧
      exec (.registerWrite (.hp x) a (d ++ e)) s = .next u) ∧
  (∀ p (a : BitVec 26) r s, pathOpen s p = true → (isMsix a.toNat = false ∨ p.isFm = true) → a.toNat % 8 = 0 →
    regAt a.toNat = some r → (regAccess p r = .rw ∨ regAccess p r = .readOnly) →
    let x := match p with | .hp x => x.val | .sideband => 0 | .mgmt _ => 0 | .steward => 0
    (regReady s r = true → exec (.rcRead p a 8) s =
      .next ((regValue x r s).2.emit (.regData p a.toNat (leBytes 8 (regValue x r s).1)))) ∧
    (regReady s r = false → exec (.rcRead p a 8) s =
      .next ({ s with boot := { s.boot with early := cnt16 s.boot.early } }.emit (.regData p a.toNat (leBytes 8 0))))) ∧
  (∀ p (a : BitVec 26) s, pathOpen s p = true → (isMsix a.toNat = false ∨ p.isFm = true) → a.toNat % 8 = 0 →
    regAt a.toNat = none → (p.isFm = false ∨ wholeReach a.toNat = true) →
    exec (.rcRead p a 8) s = .next ((noteAccess p a.toNat false s).emit (.regData p a.toNat (leBytes 8 0)))) ∧
  (∀ p (a : BitVec 26) d s, pathOpen s p = false → exec (.registerWrite p a d) s = .next (pathNote p s)) ∧
  (∀ (a : BitVec 26) (d : List Byte) r s, s.mgmt.up = true → isMsix a.toNat = false → a.toNat % 8 = 0 → d.length = 8 →
    regAt a.toNat = some r → regReady s r = true →
    (∀ q, r ≠ .mboxReq 2 q ∧ r ≠ .mboxRsp 2 q) → r ≠ .mboxCtrl 2 → r ≠ .pkgState →
    exec (.registerWrite .steward a d) s = .next (if stewardFence r
      then { s with sealCore := { s.sealCore with blocked := cnt16 s.sealCore.blocked } } else s)) ∧
  (∀ p (a : Nat) w (s : State), noteAccess p a w s = { s with glob := { s.glob with
    accessErr := { count := cnt32 s.glob.accessErr.count, addr := a, source := p.source, write := w } } })

/-- Each step of a clear zeroes what R437 names and moves PHASE on; a failed check, error or timeout ends it FAILED (R260, R421, R437, R438, R440, R441, R472). -/
def Obligations.ClearRunsStepByStep : Prop :=
  (∀ s, clearRuns s = true → s.sealCore.phase = 1 →
    exec (.onDieClearComplete true) s = .next { clearOnDie s with sealCore := { s.sealCore with phase := 2 } } ∧
    exec (.onDieClearComplete false) s = .next (clearFail stCheckFailed s)) ∧
  (∀ s, (∀ c k, SMap.wf Cluster.reset s.clusters = true → SMap.wf Core.reset (s.cluster c).cores = true →
      let x := (clearOnDie s).core c k
      x.imem = [] ∧ x.spm = [] ∧ x.s = [] ∧ x.p = [] ∧ x.v = [] ∧ x.a = [] ∧ x.w = [] ∧ x.tokens = [] ∧ x.matrix = []) ∧
    (∀ c, SMap.wf Cluster.reset s.clusters = true →
      ((clearOnDie s).cluster c).pool = [] ∧ ((clearOnDie s).cluster c).tes = [] ∧ ((clearOnDie s).cluster c).tlb = []) ∧
    (∀ e w, SMap.wf Epb.reset s.epbs = true → SMap.wf LensDesc.reset (s.epb e).lens = true →
      LensDesc.at_w (clearOnDie s) e w = { LensDesc.reset with wgen := (LensDesc.at_w s e w).wgen }) ∧
    (clearOnDie s).glob = { s.glob with dasValid := [] }) ∧
  (∀ s, clearRuns s = true → s.sealCore.phase = 2 →
    ∃ t, exec .tier0FillComplete s = .next t ∧ t.dev = [] ∧ t.ue = [] ∧ t.sealCore.phase = 3 ∧
      t = { s with dev := [], ue := [], ce := [], sill := { s.sill with parkUsed := [] },
                   sealCore := { s.sealCore with phase := 3, percent := t.sealCore.percent } }) ∧
  (∀ s, clearRuns s = true → s.sealCore.phase = 3 →
    (∀ b, exec (.tier0VerifyComplete false b) s = .next (clearFail stCheckFailed
      { s with sealCore := { s.sealCore with run := { s.sealCore.run with t0Bytes := min b (clearT0 s) } } })) ∧
    ∀ b, ∃ t, exec (.tier0VerifyComplete true b) s = .next t ∧ t.sealCore.run.t0Bytes = clearT0 s ∧
      t.sealCore.phase = (if portsCleared s then 5 else 4) ∧
      t = { s with sealCore := { s.sealCore with
        phase := t.sealCore.phase, run := { s.sealCore.run with t0Bytes := clearT0 s } } }) ∧
  (∀ s (n : Fin 4) (m : Fin 3), clearWaits s n = true →
    let d := if m.val = methodOf s n then m.val else 0
    let u := methodUsed n d (s.emit (.xpClear n d))
    exec (.expansionClearComplete n m .passed) s =
      .next (portCleared n u) ∧
    exec (.expansionClearComplete n m .sampleFailed) s = .next (clearFail stCheckFailed u) ∧
    exec (.expansionClearComplete n m .error) s = .next (clearFail stCheckFailed u) ∧
    exec (.expansionClearComplete n m .linkDown) s = .next (clearFail stTimeout u)) ∧
  (∀ s (n : Fin 4), SMap.wf Xp.reset s.xps = true → clearWaits s n = true →
    ((portCleared n s).xp n).mem = [] ∧ ((portCleared n s).xp n).poison = [] ∧ bit (portCleared n s).sealCore.portsDone n = true ∧
    ∀ j, j ≠ n.val → (portCleared n s).xp j = s.xp j) ∧
  (∀ s (n : Fin 4), clearWaits s n = true → methodOf s n ≠ 0 →
    exec (.clearLimitExpiry n) s = .next (clearFail stTimeout s)) ∧
  (∀ s (n : Fin 4), clearWaits s n = true → (s.xp n).linkUp = false → (s.xp n).fell = true →
    exec (.xpRetrainWaitExpiry n) s = .next (clearFail stTimeout s)) ∧
  (∀ s, s.boot.thermtrip = false → s.glob.state = .clearing → s.sealCore.phase = 5 →
    ∃ t, exec .clearCertify s = .next t ∧ t.glob.state = .configured ∧ t.glob.part = none ∧ t.glob.sealed_ = false ∧
      t.sealCore.phase = 0 ∧ t.sealCore.conf = false ∧ t.sealCore.log = [] ∧
      t.sealCore.seq = (s.sealCore.seq + 1) % 2 ^ 16 ∧ t.sealCore.certs.length ≤ 4 ∧
      t.cnt.core = [] ∧ t.cnt.hbm = [] ∧ t.dev = s.dev ∧ t.power = s.power) ∧
  (∀ s st, (clearFail st s).sealCore = { s.sealCore with phase := 6, result := st } ∧
    (clearFail st s).glob.state = s.glob.state ∧ (clearFail st s).dev = s.dev)

/-- A request through a free mailbox becomes BUSY work whose status and response R431 gives, and ends with them (R427, R429, R430, R431, R432, R434, R440). -/
def Obligations.MailboxRequests : Prop :=
  let queued := fun (s : State) (m : Nat) (req : List Byte) (st : Nat) (rsp : List Byte) =>
    ((s.modMbox m fun b => { b with req := req }).modMbox m fun b => { b with busy := true }).modSeal fun k =>
      { k with jobs := k.jobs ++ [{ box := m, status := st, rsp := rsp }] }
  (∀ s (m : Fin 3), mboxReach s m = true → (s.mbox m).busy = false → SMap.wf Mbox.reset s.sealCore.mbox = true →
    let r1 := fitBytes 64 [0x01]
    let r3 := fitBytes 64 [0x03]
    let r4 := fitBytes 64 [0x04]
    (s.sealCore.ident = true →
      exec (.getIdentity m) s = .next (queued s m r1 stOk (fitBytes 1793 Config.publicKey))) ∧
    (s.sealCore.ident = false → exec (.getIdentity m) s = .next (queued s m r1 stStateReject [])) ∧
    (s.sealCore.conf = true → exec (.setConfidential m) s = .next (queued s m r3 stOk [])) ∧
    (s.sealCore.conf = false → s.glob.state = .assigned → s.sealCore.log = [] → s.sealCore.ident = true →
      exec (.setConfidential m) s =
        .next (zeroCounters ((queued s m r3 stOk []).modSeal fun k => { k with conf := true }))) ∧
    (s.sealCore.conf = false → (s.glob.state ≠ .assigned ∨ s.sealCore.log ≠ [] ∨ s.sealCore.ident = false) →
      exec (.setConfidential m) s = .next (queued s m r3 stStateReject [])) ∧
    (m = 2 → s.glob.state = .clearing → s.sealCore.phase = 6 →
      exec (.clearRetry m) s = .next (clearStart (queued s m r4 stOk []))) ∧
    ((m ≠ 2 ∨ s.glob.state ≠ .clearing ∨ s.sealCore.phase ≠ 6) →
      exec (.clearRetry m) s = .next (queued s m r4 stStateReject []))) ∧
  (∀ s (m : Fin 3) (nonce : List Byte), nonce.length = 32 → mboxReach s m = true → (s.mbox m).busy = false →
    SMap.wf Mbox.reset s.sealCore.mbox = true →
    let req := (0x02 : Byte) :: zeros 15 ++ nonce ++ zeros 16
    (s.sealCore.ident = false → exec (.getReport m nonce) s = .next (queued s m req stStateReject [])) ∧
    (s.sealCore.ident = true → s.sealCore.noiseFail = true →
      exec (.getReport m nonce) s = .next (queued s m req stCheckFailed [])) ∧
    (s.sealCore.ident = true → s.sealCore.noiseFail = false →
      exec (.getReport m nonce) s = .next { queued s m req stOk (report s nonce) with free := s.free + 1 })) ∧
  (∀ s (m : Fin 3) nonce, (s.mbox m).busy = true →
    exec (.getIdentity m) s = .next s ∧ exec (.getReport m nonce) s = .next s ∧
    exec (.setConfidential m) s = .next s ∧ exec (.clearRetry m) s = .next s) ∧
  (∀ s j js, s.sealCore.jobs = j :: js →
    exec .mailboxRequestComplete s = .next ((s.modSeal fun k => { k with jobs := js }).modMbox j.box fun b =>
      { b with busy := false, status := j.status, rsp := j.rsp }))

/-- The watchdog counts beats; a restart empties the management processor and is counted; a verified image starts it again (R422, R423, R424, R448, R455). -/
def Obligations.ManagementProcessorSupervision : Prop :=
  let stopped := fun (s : State) (cause : Nat) =>
    { s with
      mgmt := { s.mgmt with up := false, restarts := satInc 0xFF s.mgmt.restarts, cause := cause, restarted := true,
                            restarting := true, inbox := [], answers := [], tid := 0, sensors := [], relay := none },
      sw := { s.sw with mirrorQ := [] }, power := { s.power with policy := none } }
  (∀ s, s.mgmt.up = true → exec .watchdogService s =
    .next { s with mgmt := { s.mgmt with beats := (s.mgmt.beats + 1) % 2 ^ 32 } }) ∧
  (∀ s, s.mgmt.up = true → exec .watchdogExpiry s = .next (raising (fun s => stopped s 1) s)) ∧
  (∀ s, s.boot.out = true → s.sealCore.ready = true → exec .restart s = .next (raising (fun s => stopped s 2) s)) ∧
  (∀ s i, s.mgmt.restarting = true → ∃ t, exec (.mpRestartComplete (some i)) s = .next t ∧
    t.mgmt.up = true ∧ t.mgmt.restarting = false ∧ t.boot = { s.boot with state := 3 } ∧
    t.sealCore = { s.sealCore with stewardImage := { digest := fitBytes 64 i.digest, svn := i.svn % 2 ^ 32 } } ∧
    t = { s with boot := t.boot, mgmt := t.mgmt, sealCore := t.sealCore }) ∧
  (∀ s, s.mgmt.restarting = true → exec (.mpRestartComplete none) s =
    .next { s with boot := { s.boot with state := 4 }, mgmt := { s.mgmt with up := false, restarting := false } }) ∧
  (∀ (f : State → State) s, raising f s =
    if (f s).sb.ibi = true ∧ s.alert = false ∧ (f s).alert = true then { f s with out := .ibi :: (f s).out } else f s)

/-- The limit controller and the thermal rules move W, duty, operating point and the event bits as their rules say (R390, R392, R393, R394, R395, R396, R397, R398, R399, R400, R424, R498). -/
def Obligations.PowerControllerEvents : Prop :=
  (∀ s, s.power.armed = true → s.power.orphan = false → silent s = true → exec .orphan s =
    .next (lowerLimit (raising (State.modPower fun p => { p with orphan := true, evOrphan := true }) s))) ∧
  (∀ s, s.power.running = true →
    (∀ w fit h, exec (.powerEstimate w fit h) s =
      .next (settleCoresTrim { s with power := estimate w (fit.val + 1) h s.now s.power })) ∧
    (∀ p10 pol, let held := if s.mgmt.up then pol else none
      let c := min (effCap s) (held.getD (effCap s))
      exec (.workingLimitUpdate p10 pol) s = .next { s with power := { s.power with
        policy := held, p10 := p10,
        limit := if s.power.limit ≤ p10 + 40 then min c (s.power.limit + 4) else min c (p10 + 40) } }) ∧
    (∀ w, exec (.estimateCalibration w) s = .next { s with power := { s.power with power := w, pmbusFail := false } }) ∧
    (s.power.pmbusFail = false → exec .pmbusReadFailure s =
      .next { s with power := { s.power with pmbusFail := true, estimate := (s.power.estimate * 108 + 99) / 100 } }) ∧
    (∀ (point : Fin 7) (fit : Fin 16), let pt := max point.val (rungPoint s.power.thermalRung)
      (pointMay s.power pt (fit.val + 1) = true →
        ∃ t, exec (.operatingPointChange point fit) s = .next (settleCoresTrim t) ∧
          t.power.oppt = pt ∧ t.power.clamp = false ∧ t.power.target = none ∧
          t.power.duty = min (fit.val + 1) (rungDuty s.power.thermalRung) ∧
          t.power.avsFail = (s.power.avsFail && s.power.oppt < pt) ∧
          t.out = (if pt < s.power.oppt then .clock pt :: .avs pt :: s.out
                   else if s.power.oppt < pt then .avs pt :: .clock pt :: s.out else s.out) ∧
          t = { s with out := t.out, power := t.power }) ∧
      (pointMay s.power pt (fit.val + 1) = false → exec (.operatingPointChange point fit) s = .next s)) ∧
    exec .avsbusTimeout s = .next { s with
      power := { s.power with avsFail := true }, out := .avs (s.power.target.getD s.power.oppt) :: s.out } ∧
    (s.power.oppt = 6 → s.power.duty = 1 → s.power.hbmIssue = 6 → 97 * s.power.limit < 100 * s.power.estimate →
      exec .capUnmet s =
        .next (raising (State.modPower fun p => { p with capUnmet := true, evCapUnmet := true }) s)) ∧
    exec .pwrWarnNAssert s = .next (settleCoresTrim (lowerLimit (raising (State.modPower fun p =>
      { p with warn := true, evWarn := true, warnCount := cnt16 p.warnCount, duty := min p.duty (p.warnDuty + 1),
               hbmIssue := max 4 p.hbmIssue, clamp := true }) s))) ∧
    (∀ tj sensor, exec (.throttle tj sensor) s =
      .next (settleCoresTrim (raising (State.modPower (thermalStep tj.toNat sensor)) s))) ∧
    (∀ temp : BitVec 8, 105 ≤ temp.toNat → exec (.swSlow temp) s =
      .next (raising (State.modPower fun p => { p with swSlow := true, evSwSlow := true }) (setDomain 160 .trim s))) ∧
    (∀ temp : BitVec 8, temp.toNat ≤ 100 → s.power.swSlow = true → exec (.swSlow temp) s =
      .next (setDomain 160 .full { s with power := { s.power with swSlow := false } })) ∧
    (∀ (n : Fin 12) (temp : BitVec 8), 95 ≤ temp.toNat → SMap.wf Hbm.reset s.hbms = true →
      exec (.hbmHot n temp) s = .next (raising (State.modPower fun p => { p with evHbmHot := true })
        (s.modHbm n fun h => { h with temp := temp.toNat, hot := true }))) ∧
    (∀ (n : Fin 12) (temp : BitVec 8), temp.toNat ≤ 90 → SMap.wf Hbm.reset s.hbms = true →
      exec (.hbmHot n temp) s = .next (s.modHbm n fun h => { h with temp := temp.toNat, hot := false }))) ∧
  (∀ s, exec .pwrWarnNRelease s = .next { s with power := { s.power with warn := false } })

/-- A domain enters the state its idle rule allows, wakes again, and applies that state's bias codes; a parked core loses vectors and tiles (R171, R384, R385, R387, R389, R390). -/
def Obligations.PowerDomainsEnterAndWake : Prop :=
  (∀ s d dest, (s.domain d.num = .full ∨ (s.domain d.num = .doze ∧ (dest = .park ∨ dest = .off))) →
    domainMay s d dest = true → (∀ c k, d ≠ .core c k) → (∀ n, d ≠ .hbm n) →
    exec (.domainIdleEntry d dest) s = .next (setDomain d.num dest s)) ∧
  (∀ s (n : Fin 12) dest, s.domain (Domain.hbm n).num = .full → domainMay s (.hbm n) dest = true →
    exec (.domainIdleEntry (.hbm n) dest) s =
      .next (setDomain (Domain.hbm n).num dest (if dest = .park then countHbm n 13 1 s else s))) ∧
  (∀ s (c : Fin 16) (k : Fin 8), (s.domain (coreDom c k)).awake = true → (s.core c k).run = .halted →
    exec (.domainIdleEntry (.core c k) .park) s =
      .next ((setDomain (spmDom c k) .doze (setDomain (coreDom c k) .park (countCore c k 41 1 s))).modCore c k fun x =>
        { x with v := [], a := [], w := [] })) ∧
  (∀ s d dest, domainMay s d dest = false → exec (.domainIdleEntry d dest) s = .next s) ∧
  (∀ s d, (s.domain d.num).awake = false → domainWakes s d = true → (∀ c k, d ≠ .core c k) →
    exec (.domainWake d) s = .next (setDomain d.num .full s)) ∧
  (∀ s (c : Fin 16) (k : Fin 8), (s.domain (coreDom c k)).awake = false → (s.core c k).run = .waking →
    exec (.domainWake (.core c k)) s =
      .next (setDomain (spmDom c k) .full
        ((setDomain (coreDom c k) (if s.power.oppt = 0 ∧ s.power.duty = 16 then .full else .trim) s).modCore c k fun x =>
          { x with run := .running }))) ∧
  (∀ d st s, s.domain d = st → setDomain d st s = s) ∧
  (∀ d st s, s.domain d ≠ st → setDomain d st s = { s with power := { s.power with
    domains := SMap.set .full s.power.domains d st,
    applied := SMap.set (1 + biasReset 0) s.power.applied d (match st with
      | .full => 1 + SMap.get 0 s.power.bias 0
      | .trim => 1 + SMap.get 0 s.power.bias 1
      | .doze => 1 + SMap.get 0 s.power.bias 2
      | .park => 1 + SMap.get 0 s.power.bias 3
      | .off => 0) } })

/-- Taking a ring's next entry reads it, reserves its completion, queues it in place, and advances the head (R52, R53, R355, R359, R360, R361, R363, R380, R382). -/
def Obligations.CommandTakeReservesAndQueues : Prop :=
  (∀ (x : Fin 2) (r : Fin 256) (entry : List Byte) s, mayTake s x r = false →
    exec (.commandTake x r entry) s = .next s) ∧
  (∀ (x : Fin 2) (r : Fin 256) (entry : List Byte) s, mayTake s x r = true →
    let q := (s.host x).sqAt r
    let e := fitBytes 64 entry
    let a := q.base + 64 * (q.head % 2 ^ q.log2)
    let u := (s.emit (.hostRead x q.pasidOf a 64)).modCq x q.cq fun c =>
      { c with owed := c.owed + 1 }
    let head := fun (s : State) => s.modSq x r fun q => { q with head := (q.head + 1) % 2 ^ 32 }
    (hostPageOk s x q.pasidOf (a / 4096) false = false →
      exec (.commandTake x r entry) s = .next (askRing x q.pasidOf (a / 4096) false s)) ∧
    (hostPageOk s x q.pasidOf (a / 4096) false = true → q.control = false →
      exec (.commandTake x r entry) s = .next (head (takeDataCmd x r e u))) ∧
    (∀ st, hostPageOk s x q.pasidOf (a / 4096) false = true → q.control = true → ctlVerdict u x r e = some st →
      SMap.wf HostPort.reset s.hosts = true →
      exec (.commandTake x r entry) s =
        .next (head (completeRing x r q.cq q.pasidOf q.head (s.host x).gen e st 0 0 u))) ∧
    (hostPageOk s x q.pasidOf (a / 4096) false = true → q.control = true → ctlVerdict u x r e = none →
      SMap.wf HostPort.reset s.hosts = true →
      exec (.commandTake x r entry) s = .next (head (u.modHost x fun h =>
        { h with ctl := h.ctl ++ [{
            ring := r, index := q.head + 2 ^ 32 * h.enables, gen := (s.host x).gen, entry := e, verdict := none,
            phase := .queued, trans := [], reserved := false, waits := [], cmds := [], cq := q.cq, das := q.das,
            pasid := q.pasidOf, taken := s.now }] })))) ∧
  (∀ x r e s, let q := (s.host x).sqAt r
    SMap.wf Cluster.reset s.clusters = true → SMap.wf Te.reset (s.cluster q.cluster).tes = true →
    ∃ cmd : TeCmd, ((takeDataCmd x r e s).te q.cluster q.te).queue = (s.te q.cluster q.te).queue ++ [cmd] ∧
      cmd.entry = e ∧ cmd.id = (s.te q.cluster q.te).nextId ∧ cmd.das = q.das ∧ cmd.phase = .queued ∧
      cmd.pasid = (if q.pasidEn then some q.pasid else none) ∧ cmd.cq = q.cq ∧
      (∀ st, dataVerdict s (isSillTe s q.cluster q.te) e = some st → cmd.verdict = some st) ∧
      (cmd.verdict = none → dataVerdict s (isSillTe s q.cluster q.te) e = none) ∧
      ((takeDataCmd x r e s).te q.cluster q.te).lastRing = 256 * x + r)

/-- The next command of a TE starts and runs by its opcode once its checks pass: local copies, remote packets, Sillage lists (R83, R88, R90, R92, R94, R96, R101, R102, R238, R267, R364, R369). -/
def Obligations.DataCommandsStartAndRun : Prop :=
  (∀ s (c : Fin 16) (t : Fin 8) q host r u,
    (TeRuns s c t 0x01 q host r u → exec (.copy c t host) s = .next (runLocal c t r u)) ∧
    (TeRuns s c t 0x02 q host r u → exec (.verify c t host) s = .next (runLocal c t r u)) ∧
    (TeRuns s c t 0x03 q host r u → exec (.put c t host) s = .next (pumpTe c t (runRemote c t r u))) ∧
    (TeRuns s c t 0x05 q host r u → exec (.mput c t host) s = .next (pumpTe c t (runRemote c t r u))) ∧
    (TeRuns s c t 0x06 q host r u → exec (.rput c t host) s = .next (pumpTe c t (runRemote c t r u))) ∧
    (TeRuns s c t 0x07 q host r u → exec (.oput c t host) s = .next (pumpTe c t (runRemote c t r u))) ∧
    (TeRuns s c t 0x08 q host r u → exec (.lseput c t host) s = .next (pumpTe c t (runRemote c t r u)))) ∧
  (∀ s (c : Fin 16) (t : Fin 8) q r u,
    (TeRuns s c t 0x04 q [] r u → exec (.get c t) s = .next (pumpTe c t (runRemote c t r u))) ∧
    (TeRuns s c t 0x09 q [] r u → exec (.atomic c t) s = .next (pumpTe c t (runRemote c t r u))) ∧
    (TeRuns s c t 0x0A q [] r u → exec (.sillPrefetch c t) s = .next (runPrefetch c t r u)) ∧
    (TeRuns s c t 0x0B q [] r u →
      exec (.sillCommit c t) s = .next (advanceCommitGo c t q.id (commitCount q.entry + 1) u)) ∧
    (TeRuns s c t 0x00 q [] r u → exec (.nop (.te c t)) s = .next (endCmd c t q.id stOk u))) ∧
  (∀ s (c : Fin 16) (t : Fin 8) q host oc, TePasses s c t oc q host →
    exec (.teCommandStart c t host) s = .next (proceed c t q.id (ready c t q host s))) ∧
  (∀ s (c : Fin 16) (t : Fin 8) q host oc st, TeNext s c t oc q → q.verdict = some st →
    exec (.teCommandStart c t host) s = .next (failCmd c t q.id st q.failAddr q.failDpa q.failOff
      (if st = stStateReject then opened c t q host s else begun c t q host s))) ∧
  (∀ s (c : Fin 16) (t : Fin 8) host q tok cc k n x w g, nextCmd (s.te c t) = some q → q.phase = .armed tok →
    q.origin = .core cc k n x w g → SMap.get 0 (s.core cc k).tokens tok ≠ 0 → mayStart s (s.te c t) q = true →
    exec (.armedCommandStart c t host) s = .next (startCmd c t q host
      (s.modCore cc k fun y => { y with tokens := SMap.upd 0 y.tokens tok (· - 1) }))) ∧
  (∀ s (c : Fin 16) (t : Fin 8) host, nextCmd (s.te c t) = none →
    exec (.teCommandStart c t host) s = .next s ∧ exec (.copy c t host) s = .next s)

/-- A plain COPY writes the bytes of its source range to its destination range and ends OK; nothing else is written (R83, R113, R369, R406). -/
def Obligations.CopyMovesItsBytes : Prop :=
  ∀ (c t : Nat) (q : TeCmd) (s : State), entOpcode q.entry = 0x01 → entVerify q.entry = false → entSeal q.entry = false →
    entMeasure q.entry = false →
    let e := q.entry
    let n := entLength e
    let src := segsOf s c q (entSrcSpace e) (entSrc e) n
    let dst := segsOf s c q (entDstSpace e) (entDst e) n
    let u := countEpb c 23 (cdiv n 16) (noteReads c q src s)
    firstBad u c false 0 src = none →
    (hostShort q src = true → runLocal c t q s = hostTimeout c t q (spoil c q dst u)) ∧
    (hostShort q src = false → firstBad u c true 0 dst = none → runLocal c t q s = endCmd c t q.id stOk (writeSegs c q dst ((readSegs u c q.data src).take n) u))

/-- The ring's next control command, of the named opcode and free to start, does to its unit what its rule says (R49, R62, R68, R126, R360, R370, R371, R372, R264, notes/assumptions/36.md). -/
def Obligations.ControlCommandsActOnTheirUnits : Prop :=
  (∀ s (x : Fin 2) (r : Fin 256) k,
    let u := ctlStarted x r k s
    (CtlNext s x r 0x00 k → exec (.nop (.ctl x r)) s = .next (finishCtl x r k.index stOk 0 u)) ∧
    (CtlNext s x r 0x41 k → exec (.windowUpdate x r) s =
      .next (settleClear (judgeUpdates (ctlUnit k.entry) (ctlWindow k.entry) 128 (u.modEpb (ctlUnit k.entry) fun b =>
        { b with byUpdate := SMap.set 0 b.byUpdate (ctlWindow k.entry) (1 + x.val) })))) ∧
    (CtlNext s x r 0x42 k →
      let w := ctlWindow k.entry
      let first := leAt k.entry 16 4
      let n := leAt k.entry 20 4
      exec (.lensInvalidate x r) s = .next ((u.modEpb (ctlUnit k.entry) fun b =>
        { b with cache := b.cache.filter fun c =>
          !(c.window == w && (n == 0 || (decide (first ≤ c.page) && decide (c.page < first + n)))) }).modCtl x r k.index
        fun k' => { k' with waits := acceptedPkts u (ctlUnit k.entry) w })) ∧
    (CtlNext s x r 0x43 k → leAt k.entry 16 8 + leAt k.entry 24 8 ≤ 2 ^ 48 →
      exec (.dvaInvalidate x r) s = .next (settleClear ((dropIdle (dvaRange k.entry)
        (forEach (List.range 16) (fun c => State.modCluster c fun cl =>
          { cl with tlb := cl.tlb.filter fun t => !dvaRange k.entry t }) u)).modCtl x r k.index
            fun k' => { k' with cmds := transUsers u (dvaRange k.entry) }))) ∧
    (CtlNext s x r 0x43 k → 2 ^ 48 < leAt k.entry 16 8 + leAt k.entry 24 8 →
      exec (.dvaInvalidate x r) s = .next (settleClear (finishCtl x r k.index stBounds 0 u))) ∧
    (CtlNext s x r 0x44 k → exec (.streamReset x r) s = .next (streamResetGo x r k u)) ∧
    (CtlNext s x r 0x46 k → exec (.coreStart x r) s =
      .next (forEach (namedCores k.entry) (startCore x (ctlUnit k.entry) (leAt k.entry 16 2)) u)) ∧
    (CtlNext s x r 0x47 k → exec (.coreStop x r) s =
      .next (settleCores (forEach (namedCores k.entry) (fun i s =>
        stopCore (ctlUnit k.entry) i (stopValue 0 (s.core (ctlUnit k.entry) i).pc 0 0) .command s) u))) ∧
    (CtlNext s x r 0x48 k → exec (.teResume x r) s =
      .next (settleResume (if entOpt k.entry then flushTe (ctlUnit k.entry) (leAt k.entry 9 1 % 8) u else u)))) ∧
  (∀ s (x : Fin 2) (r : Fin 256) k, nextCtl s x r = some k → entOpcode k.entry = 0x46 → ctlMayStart s x k = true →
    lapsed s k = true → exec (.coreStart x r) s = .next (finishCtl x r k.index stStateReject 0 s)) ∧
  (∀ s (x : Fin 2) (r : Fin 256) k host, readyLoad s x r = none → CtlNext s x r 0x45 k →
    exec (.programLoad x r host) s = .next (sillSettle (loadGo x r k.index host loadFuel
      ((ctlStarted x r k s).modCtl x r k.index fun k => { k with reserved := entMeasure k.entry })))) ∧
  (∀ s (x : Fin 2) (r : Fin 256) k host, readyLoad s x r = some k →
    exec (.programLoad x r host) s = .next (sillSettle (loadGo x r k.index host loadFuel s))) ∧
  (∀ s (x : Fin 2) (r : Fin 256) k j, ((ctlStarted x r k s).host x).ctlAt r k.index = some j →
    let done : Host.Outcome State Fault Refusal := .next (sillSettle (advanceCtl x j (ctlStarted x r k s)))
    (CtlNext s x r 0x50 k → exec (.sillAttach x r) s = done) ∧
    (CtlNext s x r 0x51 k → exec (.sillDetach x r) s = done) ∧
    (CtlNext s x r 0x52 k → exec (.sillPin x r) s = done) ∧
    (CtlNext s x r 0x53 k → exec (.sillUnpin x r) s = done) ∧
    (CtlNext s x r 0x54 k → exec (.sillMove x r) s = done) ∧
    (CtlNext s x r 0x55 k → exec (.sillRebuild x r) s = done)) ∧
  (∀ s x c pc k, SMap.wf Cluster.reset s.clusters = true →
    (∀ cl, cl ∈ s.clusters → SMap.wf Core.reset cl.2.cores = true ∧ SMap.wf Te.reset cl.2.tes = true) →
    ((startCore x c pc k s).core c k).run =
      (if s.domain (coreDom c k) = .full ∨ s.domain (coreDom c k) = .trim then .running else .waking) ∧
    ((startCore x c pc k s).core c k).pc = pc ∧ ((startCore x c pc k s).core c k).stop = 0 ∧
    ((startCore x c pc k s).core c k).tokens = [] ∧ ((startCore x c pc k s).core c k).s = (s.core c k).s ∧
    ((startCore x c pc k s).core c k).imem = (s.core c k).imem)

/-- A window update switches its descriptor to the next generation, and each drain completes once nothing it waits for is left (R49, R60, R62, R66, R68, R69, R70, notes/assumptions/37.md). -/
def Obligations.DrainsAndSwitchPointsComplete : Prop :=
  (∀ s (e : Fin 16) (w : Fin 4096) x k rest, waitingUpdates s e w = (x, k) :: rest → updateBad s k = false →
    spaced s e w = true →
    exec (.windowUpdateSwitchPoint e w) s = .next (settleClear (judgeUpdates e w 128 (switchPoint x e w k s)))) ∧
  (∀ s (e : Fin 16) (w : Fin 4096), waitingUpdates s e w = [] →
    exec (.windowUpdateSwitchPoint e w) s = .next (settleClear s)) ∧
  (∀ s x e w k, SMap.wf Epb.reset s.epbs = true → (∀ b, b ∈ s.epbs → SMap.wf LensDesc.reset b.2.lens = true) →
    openSessions (s.epb e) = [] →
    LensDesc.at_w (switchPoint x e w k s) e w =
      { descOf (newDesc k) with wgen := ((LensDesc.at_w s e w).wgen + 1) % 256 } ∧
    (∀ v, v ≠ w → LensDesc.at_w (switchPoint x e w k s) e v = LensDesc.at_w s e v) ∧
    (∀ c, c ∈ ((switchPoint x e w k s).epb e).cache → c.window ≠ w)) ∧
  (∀ s (x : Fin 2) (r : Fin 256) (i : BitVec 32) k g, (s.host x).ctlNamed r i.toNat = some k →
    entOpcode k.entry = 0x41 → k.phase = .running 1 g →
    (drainBusy s (ctlUnit k.entry) (ctlWindow k.entry) k.waits = false →
      oldRoot s (ctlUnit k.entry) (ctlWindow k.entry) g = false →
      exec (.windowUpdateDrained x r i) s = .next (settleClear (finishCtl x r k.index stOk g s))) ∧
    (drainBusy s (ctlUnit k.entry) (ctlWindow k.entry) k.waits = true →
      exec (.windowUpdateDrained x r i) s = .next s)) ∧
  (∀ s (x : Fin 2) (r : Fin 256) (i : BitVec 32) k, (s.host x).ctlNamed r i.toNat = some k →
    entOpcode k.entry = 0x42 → k.phase ≠ .queued →
    (drainBusy s (ctlUnit k.entry) (ctlWindow k.entry) k.waits = false →
      exec (.lensInvalidateDrained x r i) s = .next (settleClear (finishCtl x r k.index stOk 0 s))) ∧
    (drainBusy s (ctlUnit k.entry) (ctlWindow k.entry) k.waits = true →
      exec (.lensInvalidateDrained x r i) s = .next s)) ∧
  (∀ s (x : Fin 2) (r : Fin 256) (i : BitVec 32) k, (s.host x).ctlNamed r i.toNat = some k →
    entOpcode k.entry = 0x43 → k.phase ≠ .queued →
    (k.cmds.any (cmdBusy s) = false → exec (.dvaInvalidateDrained x r i) s =
      .next (settleClear (finishCtl x r k.index stOk 0 s))) ∧
    (k.cmds.any (cmdBusy s) = true → exec (.dvaInvalidateDrained x r i) s = .next s)) ∧
  (∀ s, (s.glob.clearWait = false ∨ updatesRun s = true) → settleClear s = s) ∧
  (∀ s, s.glob.clearWait = true → updatesRun s = false →
    settleClear s = clearStart (enterState .clearing { s with glob := { s.glob with clearWait := false } }))

/-- A walk, an ATS completion, a page response and an invalidation each carry the waiting commands on, or end them (R44, R45, R46, R53, R54, R55). -/
def Obligations.TranslationEvents : Prop :=
  (∀ s (c : Fin 16) (t : Fin 8) q das page tr, walkingCmd (s.te c t) = some (q, das, page) →
    walkEnd (wakeWalk s das page) das page = .leaf tr →
    exec (.translationWalkComplete c t) s = .next (proceed c t q.id
      ((cacheTrans c tr (wakeWalk s das page)).modTe c t (Te.modCmd q.id fun q => { q with trans := tr :: q.trans })))) ∧
  (∀ s (c : Fin 16) (t : Fin 8) q das page st a, walkingCmd (s.te c t) = some (q, das, page) →
    walkEnd (wakeWalk s das page) das page = .bad st a → st ≠ stUncorrected →
    exec (.translationWalkComplete c t) s =
      .next (failCmd c t q.id st q.failAddr a q.failOff (wakeWalk s das page))) ∧
  (∀ s (c : Fin 16) (t : Fin 8) q das page cpn a, walkingCmd (s.te c t) = some (q, das, page) →
    let u := wakeWalk s das page
    walkEnd u das page = .away cpn a → pageVerdict u cpn = none → pageState (demandPage cpn u) cpn ≠ pgResident →
    exec (.translationWalkComplete c t) s = .next ((demandPage cpn u).modTe c t (Te.modCmd q.id fun q =>
      { q with phase := .pageWait cpn das page, failDpa := a }))) ∧
  (∀ s (x : Fin 2) (pasid : Option (BitVec 20)) (page : BitVec 52) log2 rd wr, 12 ≤ log2 → log2 ≤ 30 →
    let e : AtcEntry := { pasid := pasid.map (·.toNat), page := page.toNat, log2 := log2, read := rd, write := wr }
    let ws := atsWaiters s x (waitsAts e)
    let names := fun (o : Option Nat) (p : Nat) => o = e.pasid ∧ 4096 * p / 2 ^ log2 = 4096 * e.page / 2 ^ log2
    (s.host x).atsEn = true → ws ≠ [] →
    (∀ w, w ∈ loadsWaiting s x loadAts (fun _ => true) → ¬names w.1.pasid w.2) →
    (∀ w, w ∈ hostLandings s x false → ¬names w.2.2.1.1.pasid w.2.2.2) →
    (∀ a, a ∈ (s.host x).ringAsks → a.pri = false → ¬names a.pasid a.page) →
    exec (.translationCompletion x pasid page log2 rd wr) s = .next (settleRings x (forEach ws (afterAts x e)
      (if rd || wr then s.modHost x fun h => { h with atc := (e :: h.atc).take 2048 } else s)))) ∧
  (∀ s (x : Fin 2) (page : BitVec 52), loadsWaiting s x loadPri (· == page.toNat) = [] →
    (∀ w, w ∈ hostLandings s x true → w.2.2.2 ≠ page.toNat) →
    (∀ a, a ∈ (s.host x).ringAsks → a.pri = true → a.page ≠ page.toNat) →
    exec (.pageRequestGroupResponse x page true) s = .next (settleRings x
      (forEach (atsWaiters s x (waitsPri page.toNat)) (fun w s => proceed w.1 w.2.1 w.2.2 s) s)) ∧
    exec (.pageRequestGroupResponse x page false) s = exec (.priWaitExpiry x page) s ∧
    exec (.priWaitExpiry x page) s = .next (settleRings x
      (forEach (atsWaiters s x (waitsPri page.toNat)) (fun w => denyCmd w.1 w.2.1 w.2.2) s))) ∧
  (∀ s c t id q, (s.te c t).cmd id = some q →
    denyCmd c t id s = failCmd c t id stPermission q.failAddr 0 q.failOff s) ∧
  (∀ s (x : Fin 2) (tag : Fin 32) (pasid : Option (BitVec 20)) (page : BitVec 52) log2, 12 ≤ log2 → log2 ≤ 64 →
    exec (.atsInvalidateRequest x tag pasid page log2) s = .next (s.modHost x fun h =>
      { h with atc := h.atc.filter fun e => !(e.pasid == pasid.map (·.toNat) && e.meets page.toNat log2),
               inval := h.inval ++ [(tag.val, page.toNat, log2)] })) ∧
  (∀ s (x : Fin 2) (tag : Fin 32) i, (s.host x).inval.find? (fun i => i.1 == tag.val) = some i →
    exec (.invalidateCompletion x tag) s = .next
      ((s.modHost x fun h => { h with inval := h.inval.filter fun j => j.1 != tag.val }).emit (.invalDone x tag)))

/-- A TE's timers act on the slot they name, and its queue reports its commands in order, faulting on a failing status (R84, R106, R107, R113, R199, R361, R372). -/
def Obligations.TransferEngineTimersAndReports : Prop :=
  (∀ s (c : Fin 16) (t : Fin 8) (i : Fin 512) id k p, slotOwner s c t i = some (id, k) → slotPkt s c t i = some p →
    p.state = .backoff i →
    exec (.holdFullBackoffExpiry c t i) s = .next (inject c p.pkt (countEpb c 25 1 (s.modTe c t (Te.modCmd id fun q =>
      { q with pkts := modAt (fun p => { p with state := .outstanding i }) q.pkts k }))))) ∧
  (∀ s (c : Fin 16) (t : Fin 8) (i : Fin 512) p, slotPkt s c t i = some p → p.state = .outstanding i →
    exec (.remoteOperationTimeout c t i) s = .next (pumpTe c t (packetEnd .lost c t i stTimeout .quarantined s)) ∧
    exec (.holdFullBackoffExpiry c t i) s = .next s) ∧
  (∀ s (c : Fin 16) (t : Fin 8) (i : Fin 512), (s.te c t).slotAt i = .quarantined →
    exec (.tidQuarantineExpiry c t i) s = .next (pumpTe c t (s.modTe c t (Te.setSlot i .free)))) ∧
  (∀ s (c : Fin 16) (t : Fin 8) (i : Fin 512), (s.te c t).slotAt i ≠ .quarantined →
    exec (.tidQuarantineExpiry c t i) s = .next s) ∧
  (∀ s (c : Fin 16) (t : Fin 8) q rest p r i g, (s.te c t).queue = q :: rest → q.phase = .done stOk →
    q.origin = .ring p r i g →
    exec (.teCommandCompletion c t) s = .next (pumpTe c t (sillSettle (settleResume
      (completeRing p r q.cq q.pasid i g q.entry stOk q.result q.detail (s.modTe c t fun te => { te with queue := rest })))))) ∧
  (∀ s (c : Fin 16) (t : Fin 8) q rest cc k n x w g, (s.te c t).queue = q :: rest → q.phase = .done stOk →
    q.origin = .core cc k n x w g →
    exec (.teCommandCompletion c t) s = .next (pumpTe c t (sillSettle (settleResume
      (coreCompletion cc k n x w g stOk (s.modTe c t fun te => { te with queue := rest })))))) ∧
  (∀ s (c : Fin 16) (t : Fin 8) q rest p r i g st, (s.te c t).queue = q :: rest → q.phase = .done st →
    q.origin = .ring p r i g → st ≠ stOk → st ≠ stStateReject → st ≠ stTornDown → st ≠ stTimeout →
    let u := completeRing p r q.cq q.pasid i g q.entry st q.result q.detail (s.modTe c t fun te => { te with queue := rest })
    exec (.teCommandCompletion c t) s = .next (pumpTe c t (sillSettle (settleResume
      (stallTe c t (fitBytes 64 (teFaultRecord u c t q st)) (faultRecord (faultPort u q) (teFaultRecord u c t q st) u)))))) ∧
  (∀ s (c : Fin 16) (t : Fin 8), (s.te c t).queue = [] →
    exec (.teCommandCompletion c t) s = .next (pumpTe c t (sillSettle (settleResume s))))

/-- A request that passes every check does its work at the target bytes and is answered as its operation says (R63, R88, R91, R92, R93, R94, R96, R97, R98, R99, R121, R137). -/
def Obligations.FabricRequestsAreServed : Prop :=
  (∀ s (e : Fin 16) p gs u, Accepted s e opLoad p gs u → segsBad u e false gs = false →
    exec (.load e) s = .next (answerWith e p.hdr stOk 0 (segsRead u e gs)
      (countEpb e 2 1 (countEpb e 14 p.hdr.cnt.toNat (noteSegs false e none gs (segsTouch gs u)))))) ∧
  (∀ s (e : Fin 16) p gs u op, op = opFetch ∨ op = opCswap → Accepted s e op p gs u →
    let z := typeSize (p.hdr.attr.toNat % 16)
    let g := segsTake z gs
    let old := leVal (segsRead u e g)
    let r := atomicNew p.hdr old p.payload
    let v := countEpb e 14 1 (noteSegs false e none g (segsTouch g u))
    segsBad u e false g = false → segsBad u e true g = false →
    (op = opFetch → exec (.fetchOp e) s = .next (answerWith e p.hdr stOk r.2 (leBytes 8 old ++ zeros 8)
      (countEpb e 5 1 (markBusy e op g (targetWrite e none g (leBytes z r.1) v))))) ∧
    (op = opCswap → exec (.cswap e) s = .next (answerWith e p.hdr stOk r.2 (leBytes 8 old ++ zeros 8)
      (countEpb e 6 1 (markBusy e op g (if r.2 = 0 then v else targetWrite e none g (leBytes z r.1) v)))))) ∧
  (∀ s (e : Fin 16) p gs u op, op = opReduce ∨ op = opWreduce → Accepted s e op p gs u →
    segsBad u e false gs = false → segsBad u e true gs = false →
    let v := markBusy e op gs (targetWrite e none gs (reduceAll p.hdr.attr.toNat (segsRead u e gs) p.payload)
      (countEpb e 14 p.hdr.len.toNat (noteSegs false e none gs (segsTouch gs u))))
    (op = opReduce → exec (.reduce e) s = .next (answer e p.hdr stOk (countEpb e 7 1 v))) ∧
    (op = opWreduce → exec (.wreduce e) s = .next (answer e p.hdr stOk (countEpb e 8 1 v)))) ∧
  (∀ s (e : Fin 16) p gs u, Accepted s e opOreduce p gs u →
    exec (.oreduce e) s = .next (accordStage e (LensDesc.at_w (taken e p s) e p.hdr.window) p u)) ∧
  (∀ s (e : Fin 16) p gs u, Accepted s e opLse p gs u →
    exec (.lse e) s = .next (accordStage e (LensDesc.at_w (taken e p s) e p.hdr.window) p u)) ∧
  (∀ s (e : Fin 16) p gs u op, op = opStore ∨ op = opMcast → Accepted s e op p gs u → isCarry p.hdr = false →
    p.hdr.f = 0 → p.hdr.len ≠ 0 → segsBad u e true gs = false →
    let v := markBusy e op gs (targetWrite e none gs p.payload u)
    let r := (recOf u e p.hdr).getD (newRec p.hdr)
    r.held = none → r.broken = false →
    (op = opStore → exec (.store e) s =
      .next (answer e p.hdr stOk (countEpb e 3 1 (putRec e { r with landed := r.landed + 1 } v)))) ∧
    (op = opMcast → exec (.mcastStore (.endpoint e)) s =
      .next (answer e p.hdr stOk (countEpb e 3 1 (putRec e { r with landed := r.landed + 1 } v))))) ∧
  (∀ s (e : Fin 16) p u, Accepted s e opCarry p [] u →
    exec (.streamCarryRequest e) s = .next (streamStage e p [] u))

/-- While FENCED or CLEARING, and outside its partition, an endpoint answers every request without doing its work (R63, R87, R411). -/
def Obligations.FencedEndpointAnswersTornDown : Prop :=
  ∀ s (e : Fin 16) op p (c : Instr), HeadIs s e op p →
    (op, c) ∈ [(opLoad, .load e), (opStore, .store e), (opFetch, .fetchOp e), (opCswap, .cswap e), (opReduce, .reduce e),
      (opWreduce, .wreduce e), (opOreduce, .oreduce e), (opLse, .lse e), (opMcast, .mcastStore (.endpoint e)),
      (opCarry, .streamCarryRequest e)] →
    ((s.glob.state = .fenced ∨ s.glob.state = .clearing) → exec c s = .next (answer e p.hdr stTornDown (taken e p s))) ∧
    (s.glob.state ≠ .fenced → s.glob.state ≠ .clearing →
      (∀ st, headerVerdict p = some st → exec c s = .next (answer e p.hdr st (taken e p s))) ∧
      (headerVerdict p = none → s.glob.part ≠ some p.hdr.part.toNat →
        exec c s = .next (answer e p.hdr stFenced (taken e p s))))

/-- A response leaves the buffer and acts on the packet it answers: done, retried on HOLD_FULL, failed, or counted late (R12, R88, R90, R92, R94, R99, R103, R106, R108, R118). -/
def Obligations.ResponsesReachTheirCommand : Prop :=
  (∀ s (e : Fin 16) op r (c : Instr), HeadIs s e (op + 0x80) r →
    (op, c) ∈ [(opLoad, .loadResp e), (opStore, .storeAck e), (opFetch, .fetchResp e), (opCswap, .cswapResp e),
      (opReduce, .reduceAck e), (opWreduce, .wreduceAck e), (opOreduce, .oreduceAck e), (opLse, .lseAck e),
      (opMcast, .mcastAck (.endpoint e)), (opCarry, .carryAck e)] →
    exec c s = .next (takeResponse e r (dropHead e r s))) ∧
  (∀ s e r, let tid := r.hdr.tid.toNat
    let u := wakeDomain (endpointDom e) s
    (answered u e tid r.hdr.op.toNat = none →
      takeResponse e r s = u.modEpb e fun b => { b with lateResp := cnt32 b.lateResp }) ∧
    (∀ q k p, answered u e tid r.hdr.op.toNat = some (q, k, p) → (r.hdr.rsv0 ≠ 0 ∨ r.hdr.rsv1 ≠ 0) →
      takeResponse e r s = pumpTe e (tidTe tid) (packetDone e (tidTe tid) (tidSlot tid) stMalformed .free u)) ∧
    ∀ q k p, answered u e tid r.hdr.op.toNat = some (q, k, p) → r.hdr.rsv0 = 0 → r.hdr.rsv1 = 0 →
      (r.hdr.attr.toNat = stHoldFull → p.tries < 24 →
        takeResponse e r s = pumpTe e (tidTe tid) (u.modTe e (tidTe tid) (Te.modCmd q.id fun q =>
          { q with pkts := modAt (fun p => { p with tries := p.tries + 1, state := .backoff (tidSlot tid) }) q.pkts k }))) ∧
      (r.hdr.attr.toNat = stOk → takeResponse e r s = pumpTe e (tidTe tid) (goodResponse e tid q p r u)) ∧
      (r.hdr.attr.toNat ≠ stOk → (r.hdr.attr.toNat ≠ stHoldFull ∨ 24 ≤ p.tries) →
        takeResponse e r s =
          pumpTe e (tidTe tid) (packetDone e (tidTe tid) (tidSlot tid) r.hdr.attr.toNat .free u)))

/-- A formed root is written, an open session abandoned, a held flag timed out, a queued write applied, a page wait ended (R98, R100, R121, R122, R136, R137, R140, R141, R230, R265). -/
def Obligations.EndpointTimersAndSessions : Prop :=
  (∀ s (e : Fin 16) (w : Fin 4096) (pos : BitVec 40) (step : BitVec 16) x root,
    (s.epb e).sessions.find? (fun x => x.root.isSome && x.named w pos.toNat step.toNat) = some x → x.root = some root →
    exec (.accordRootWritten e w pos step) s = .next (writeRoot e x root s)) ∧
  (∀ s (e : Fin 16) (w : Fin 4096) (pos : BitVec 40) (step : BitVec 16) x,
    (s.epb e).sessions.find? (fun x => x.root.isNone && x.named w pos.toNat step.toNat) = some x →
    exec (.accordTimeout e w pos step) s = .next (abandon e x stOk s)) ∧
  (∀ s e x st, SMap.wf Epb.reset s.epbs = true → (s.epb e).notifyEn = false →
    x ∉ ((abandon e x st s).epb e).sessions ∧ (abandon e x st s).dev = s.dev ∧ (abandon e x st s).clusters = s.clusters) ∧
  (∀ s (e : Fin 16) (n : BitVec 12) (g : BitVec 6) r x,
    (s.epb e).streams.find? (fun r => r.snode == n.toNat && r.stag == g.toNat) = some r → r.held = some x →
    (r.due = true → exec (.flagHoldTimeout e n g) s = .next s) ∧
    (r.due = false → ∃ t, exec (.flagHoldTimeout e n g) s = .next t ∧
      (SMap.wf Epb.reset s.epbs = true →
        (t.epb e).brokenTimeouts = cnt16 (s.epb e).brokenTimeouts ∧
        ({ r with held := none, broken := true } : StreamRec) ∈ (t.epb e).streams))) ∧
  (∀ s (e : Fin 16) c, readyCollided s.now (s.epb e).busy [] (s.epb e).collide = some c →
    let u := unstall e (s.modEpb e fun b => { b with collide := b.collide.erase c })
    ((inStream c.pkt.hdr.op.toNat = false ∨ tableFull u e c.pkt.hdr = false) →
      exec (.collisionQueueDequeue e) s =
        .next (releaseDue e (workStage e (LensDesc.at_w u e c.pkt.hdr.window) c.pkt c.segs u))) ∧
    (inStream c.pkt.hdr.op.toNat = true → tableFull u e c.pkt.hdr = true →
      exec (.collisionQueueDequeue e) s = .next (releaseDue e (holdFull e c.pkt.hdr u)))) ∧
  (∀ s (e : Fin 16) x rest, (s.epb e).pageWait = x :: rest →
    exec (.pageWaitExpiry e) s = .next ((s.modEpb e fun b => { b with pageWait := rest }).modSill fun l =>
      { l with waitExpired := cnt16 l.waitExpired }))

/-- A management request from a listed manager is served and answered; a response is handed to the steward (R33, R78, R105, R284, R424, R458). -/
def Obligations.ManagementPackets : Prop :=
  (∀ s m u op (c : Instr), let p := m.pkt
    (op, c) ∈ [(opMgmtRead, Instr.mgmtRead), (opMgmtWrite, .mgmtWrite), (opMgmtMsg, .mgmtMsg)] →
    takeMgmt op s = some (m, u) →
    (mgmtVerdict m = none →
      (op = opMgmtRead →
        (∀ v t, quadRead (.mgmt p.hdr.snode) p.hdr.offset.toNat u = some (v, t) →
          exec c s = .next (switchSend (respond p.hdr stOk 0 (leBytes 8 v ++ zeros 8)) t)) ∧
        (quadRead (.mgmt p.hdr.snode) p.hdr.offset.toNat u = none →
          exec c s = .next (switchSend (respond p.hdr stPermission 0 []) u))) ∧
      (op = opMgmtWrite →
        (∀ t, quadWrite (.mgmt p.hdr.snode) p.hdr.offset.toNat (leAt p.payload 0 8) u = some t →
          exec c s = .next (switchSend (respond p.hdr stOk 0 []) t)) ∧
        (quadWrite (.mgmt p.hdr.snode) p.hdr.offset.toNat (leAt p.payload 0 8) u = none →
          exec c s = .next (switchSend (respond p.hdr stPermission 0 []) u))) ∧
      (op = opMgmtMsg → u.mgmt.up = true → u.mgmt.inbox.length < Config.inboxSize →
        exec c s = .next (switchSend (respond p.hdr stOk 0 [])
          { u with mgmt := { u.mgmt with inbox := u.mgmt.inbox ++ [p.payload] } })) ∧
      (op = opMgmtMsg → (u.mgmt.up = false ∨ Config.inboxSize ≤ u.mgmt.inbox.length) →
        exec c s = .next (switchSend (respond p.hdr stHoldFull 0 []) u))) ∧
    (m.listed = false → exec c s = .next (switchSend (respond p.hdr stPermission 0 [])
      { u with glob := { u.glob with mgrReject := cnt32 u.glob.mgrReject } })) ∧
    (m.listed = true → mgmtForm p = false →
      exec c s = .next (switchSend (respond p.hdr stMalformed 0 []) u)) ∧
    (m.listed = true → mgmtForm p = true → p.trailerOk = false →
      exec c s = .next (switchSend (respond p.hdr stCheckFailed 0 []) u))) ∧
  (∀ s m u op (c : Instr), (op, c) ∈ [(opMgmtRead, Instr.mgmtReadResp), (opMgmtWrite, .mgmtWriteAck), (opMgmtMsg, .mgmtMsgAck)] →
    takeMgmt (op + 0x80) s = some (m, u) →
    exec c s = .next (if u.mgmt.up then { u with mgmt := { u.mgmt with answers := u.mgmt.answers ++ [m.pkt] } } else u)) ∧
  (∀ s op, (∀ m, m ∈ s.mgmt.rx → m.pkt.hdr.op.toNat ≠ op) → takeMgmt op s = none)

/-- The next packet of an input is dealt with in the switch's order of checks, and an output sends the packet the arbiter picks (R86, R276, R278, R280, R289, R290, R291, R294, R303, R310). -/
def Obligations.PacketsCrossTheSwitch : Prop :=
  let dealt := fun (s : State) (i : Nat) (p : Packet) (ps : List Packet) =>
    switchPacket i p (countRx i p (s.modPort i fun q => { q with rx := ps }))
  let entered := fun (s : State) (e : Nat) (p : Packet) (ps : List Packet) =>
    switchPacket (88 + e) p (s.modSw fun w => { w with attachIn := SMap.set [] w.attachIn e ps })
  (∀ s (i : Fin 104) p ps, s.sw.ready = true → i.val < 88 → (s.port i).rx = p :: ps →
    exec (.packetArrival i) s = .next (linkPoll (dealt s i p ps)) ∧
    (p.hdr.op.toNat = opMcast → exec (.mcastStore (.prism i)) s = .next (dealt s i p ps)) ∧
    (p.hdr.op.toNat = opMcast + 0x80 → exec (.mcastAck (.prism i)) s = .next (dealt s i p ps))) ∧
  (∀ s (e : Fin 16) (i : Fin 104) p ps, i.val = 88 + e.val → s.sw.ready = true →
    let q := SMap.get [] s.sw.attachIn e
    (nextAttached (fun _ => true) s i [] q = some (p, ps) →
      exec (.packetArrival i) s = .next (linkPoll (pumpSource i (entered s e p ps)))) ∧
    (nextAttached (fun x => x.hdr.op.toNat == opMcast) s i [] q = some (p, ps) →
      exec (.gatherRecordFreed e) s = .next (pumpSource i (entered s e p ps)) ∧
      exec (.mcastStore (.prism i)) s = .next (entered s e p ps)) ∧
    (nextAttached (fun x => x.hdr.op.toNat == opMcast + 0x80) s i [] q = some (p, ps) →
      exec (.mcastAck (.prism i)) s = .next (entered s e p ps))) ∧
  (∀ ok s i p ps, ok p = true → attachCredit s (i - 88) p = true → gatherBlocked s i p = false →
    attachLost s (i - 88) = false → nextAttached ok s i [] (p :: ps) = some (p, ps)) ∧
  (∀ s (i : Fin 104) p, let u := wakeDomain switchDom s
    (s.placed = false →
      switchPacket i p s = passCredits i p (if 88 ≤ i.val then noWay i p false u else noteNoRoute u)) ∧
    (s.placed = true →
      (p.hdr.hcrcOk = false → switchPacket i p s = passCredits i p (noteHdrErr u)) ∧
      (p.hdr.hcrcOk = true → (257 ≤ p.hdr.len.toNat ∨ p.hdr.hop = 3) →
        switchPacket i p s = passCredits i p (answerMalformed p (noteHdrErr u))) ∧
      (p.hdr.hcrcOk = true → p.hdr.len.toNat < 257 → p.hdr.hop ≠ 3 →
        switchPacket i p s = dispatchPacket i (police i p.hdr u).1 p (police i p.hdr u).2))) ∧
  (∀ s (i : Fin 104) c p,
    let here := p.hdr.dnode.toNat / 16 = s.glob.slot
    (i.val < 88 → p.hdr.vc = 7 → dispatchPacket i c p s = transitPacket i p s) ∧
    (i.val < 88 → p.hdr.vc ≠ 7 → p.hdr.vc ≠ 0 → (s.port i).fenced = true →
      dispatchPacket i c p s = passCredits i p (noteFenceDrop i s)) ∧
    (p.hdr.vc = 0 → here → dispatchPacket i c p s = arriveMgmt i p s) ∧
    (isMgmtOp p.hdr.op.toNat = true →
      let m : MgmtPkt := { pkt := p, listed := onList s p.hdr.snode.toNat }
      (s.mgmt.held = [] → s.mgmt.rx.length ≤ Config.mgmtMore →
        arriveMgmt i p s = passCredits i p (s.modMgmt fun g => { g with rx := g.rx ++ [m] })) ∧
      ((s.mgmt.held ≠ [] ∨ Config.mgmtMore < s.mgmt.rx.length) → isResp p.hdr = false →
        ∃ id, ((arriveMgmt i p s).mgmt.held = s.mgmt.held ++ [(m, id)] ∧ (arriveMgmt i p s).mgmt.rx = s.mgmt.rx))) ∧
    (p.hdr.vc ≠ 0 → (i.val < 88 → p.hdr.vc ≠ 7 ∧ (s.port i).fenced = false) →
      (p.hdr.op.toNat = opMcast → dispatchPacket i c p s = prismStore i c p s) ∧
      (p.hdr.op.toNat = opMcast + 0x80 → here → dispatchPacket i c p s = gatherAck i p s) ∧
      (p.hdr.op.toNat ≠ opMcast → (p.hdr.op.toNat ≠ opMcast + 0x80 ∨ ¬ here) →
        splitMerged i p s = none → dispatchPacket i c p s = forward i c p s)) ∧
    (here → forward i c p s = toEndpoint i c p s) ∧
    (¬ here → i.val < 88 → p.hdr.hop = 2 → forward i c p s = passCredits i p (noteHopLimit s)) ∧
    (¬ here → i.val < 88 → p.hdr.hop ≠ 2 → forward i c p s = routePacket i (p.hdr.hop.toNat + 1) c p s) ∧
    (¬ here → 88 ≤ i.val → forward i c p s = routePacket i 0 c p s)) ∧
  (∀ s (o : Fin 104),
    (∀ v, pickVc (dropDoomed o s) o = some v → exec (.outputGrant o) s = .next (linkPoll (grant o v (dropDoomed o s)))) ∧
    (pickVc (dropDoomed o s) o = none → exec (.outputGrant o) s = .next (linkPoll (dropDoomed o s))) ∧
    (∀ v, pickVc s o = some v → canGrant s o v = true ∧ (v ≠ 0 → canGrant s o 0 = false) ∧
      (v ≠ 0 → v ≠ 7 → canGrant s o 7 = false)))

/-- The switch's timers discard the oldest packet, end gather records, take ports down, audit cells and sample queues (R277, R291, R297, R308, R319, R323, R341, notes/assumptions/16.md). -/
def Obligations.SwitchTimersAndAudit : Prop :=
  (∀ s (o : Fin 104) (v : Fin 8) q, oldestIn s o v = some q →
    exec (.ageDrop o v) s = .next (linkPoll (raising (State.modSw fun w =>
      { w with ageDrop := cnt32 w.ageDrop, evAge := true }) (discard o v q s)))) ∧
  (∀ s o v q, oldestIn s o v = some q → q ∈ s.sw.queue o v ∧ ∀ x ∈ s.sw.queue o v, q.since ≤ x.since) ∧
  (∀ s (o : Fin 104) (v : Fin 8), s.sw.queue o v = [] → exec (.ageDrop o v) s = .next s) ∧
  (∀ s (sn tid : BitVec 12), ∃ t, exec (.gatherRecordTimeout sn tid) s = .next t ∧
    t = { s with sw := { s.sw with gathers := t.sw.gathers } } ∧
    ∀ g, g ∈ t.sw.gathers ↔ g ∈ s.sw.gathers ∧ ¬ (g.snode = sn.toNat ∧ g.tid = tid.toNat)) ∧
  (∀ s (n : Fin 88), s.live n = true → exec (.portDown n) s = .next (linkPoll (portGoDown n .disabled s))) ∧
  (∀ s (n : Fin 88) (v : Fin 8) q, s.live n = true → q ∈ s.sw.queue n v → hasCredit s n v (cellsOf q.pkt) = false →
    exec (.creditWatchdogExpiry n v) s = .next (linkPoll (portGoDown n .disabled s))) ∧
  (∀ s (n : Fin 104), n.val < 88 → s.live n = true → (s.port n).retry ≠ [] →
    exec (.frameAckTimeout n) s = .next (linkPoll (portGoDown n .disabled s))) ∧
  (∀ s (n : Fin 104), 88 ≤ n.val → exec (.frameAckTimeout n) s = .next (linkPoll (attachGoDown (n - 88) s))) ∧
  (∀ s, s.sw.ready = true →
    let sus := s.sw.suspects
    let c := s.sw.auditCell
    (c ∉ sus → exec (.auditCellCheck .consistent) s = .next (auditNext s)) ∧
    (c ∈ sus → exec (.auditCellCheck .consistent) s =
      .next (auditNext { s with sw := { s.sw with suspects := sus.filter (· != c), free := s.sw.free + 1 } })) ∧
    (c ∉ sus → s.sw.free ≠ 0 → exec (.auditCellCheck .unowned) s =
      .next (auditNext { s with sw := { s.sw with suspects := sus ++ [c], free := s.sw.free - 1 } })) ∧
    (c ∉ sus → s.sw.free = 0 → exec (.auditCellCheck .unowned) s = .next (auditNext s)) ∧
    (c ∈ sus → ∃ t, exec (.auditCellCheck .unowned) s = .next t ∧ t.sw.leaked = cnt16 s.sw.leaked ∧
      t.sw.leakEv = true ∧ t.sw.suspects = sus.filter (· != c) ∧ t.sw.free = s.sw.free + 1) ∧
    ∀ (o : Fin 104) (v : Fin 8) i, ∃ t, exec (.auditCellCheck (.both o v i)) s = .next t ∧
      t.sw.conflict = satInc 0x3FFF s.sw.conflict ∧ t.sw.conflictEv = true) ∧
  (∀ s, (s.sw.auditCell + 1 ≠ 262144 → (auditNext s).sw.auditCell = s.sw.auditCell + 1 ∧ (auditNext s).sw.passes = s.sw.passes) ∧
    (s.sw.auditCell + 1 = 262144 → (auditNext s).sw.auditCell = 0 ∧
      (auditNext s).sw.passes = (s.sw.passes + 1) % 2 ^ 32)) ∧
  (∀ s (o : Fin 104) (v : Fin 8), s.sw.ready = true → SMap.wf QSample.reset s.sw.qsample = true →
    ∃ t, exec (.queueSample o v) s = .next t ∧
      let old := SMap.get QSample.reset s.sw.qsample (8 * o.val + v.val)
      let new := SMap.get QSample.reset t.sw.qsample (8 * o.val + v.val)
      new.depth = queueCells s o v ∧ new.peak = max old.peak (queueCells s o v) ∧
      (∀ q r, s.sw.queue o v = q :: r → new.delay = min 0xFFFF ((s.now - q.queued) / 20)) ∧
      (s.sw.queue o v = [] → new.delay = 0) ∧
      ∀ j, j ≠ 8 * o.val + v.val →
        SMap.get QSample.reset t.sw.qsample j = SMap.get QSample.reset s.sw.qsample j) ∧
  (∀ s, s.sw.ready = true → ∃ t, exec .congestionMapPeriod s = .next t ∧ t.sw.cacc = [] ∧ t.sw.cmapFrom = s.now ∧
    t.sw.cmapSeq = (s.sw.cmapSeq + 1) % 2 ^ 32 ∧ t.ports = s.ports ∧ t.sw.queues = s.sw.queues)

/-- Lanes train by lock and training frames, unfinished ones fail, and two ID frames bring a port up or find it miswired (R24, R294, R328, R329, R332, R333, R334, R335, R336, R337, notes/assumptions/31.md). -/
def Obligations.LinksTrainAndComeUp : Prop :=
  (∀ s (n : Fin 88) (k : Fin 4) inv l, (s.port n).lane k = l →
    (l.ts = .detect → exec (.cdrLock n k inv) s = .next (settleTraining n (sendTrain n k (s.modPort n (Port.modLane k fun l =>
      { l with los := false, lol := false, polarity := inv, ts := .cap }))))) ∧
    (l.ts = .rate → exec (.cdrLock n k inv) s = .next (settleTraining n (sendTrain n k (s.modPort n (Port.modLane k fun l =>
      { l with los := false, lol := false, polarity := inv, ts := .tap }))))) ∧
    (l.ts = .align → exec (.alignmentLock n k) s = .next (settleTraining n (s.modPort n (Port.modLane k fun l =>
      { l with ts := .active, locked := true })))) ∧
    (l.ts = .tap → asking l ≠ [] → exec (.tapHandshakeTimeout n k) s =
      .next (sendTrain n k (s.modPort n (Port.modLane k Lane.answered)))) ∧
    (∀ w f wish, heardFrame n k w s = some f →
      ((l.ts = .cap ∨ l.ts = .tap) → f.lane ≠ k → exec (.trainingFrame n k w wish) s = .next (failInTraining n k s)) ∧
      (l.ts = .cap → f.lane = k → exec (.trainingFrame n k w wish) s = .next (capFrame n k f s)) ∧
      (l.ts = .tap → f.lane = k → exec (.trainingFrame n k w wish) s = .next (tapFrame n k f wish s))) ∧
    (∀ w wish, (heardFrame n k w s = none ∨ (l.ts ≠ .cap ∧ l.ts ≠ .tap)) → exec (.trainingFrame n k w wish) s = .next s)) ∧
  (∀ s (n : Fin 88) (k : Fin 4) w, (s.port n).state ≠ .loop → heardFrame n k w s = TrainFrame.ofWord w) ∧
  (∀ f : TrainFrame, TrainFrame.ofWord f.word = some f) ∧
  (∀ last xs, last < 4 → (∀ x ∈ xs, x < 4) → unprecode last (precode last xs) = xs) ∧
  (∀ a b, grayBits (grayLevel a b) = [a, b]) ∧
  (∀ v i up t, (tapStep v i up t).2 = .refused → (tapStep v i up t).1 = t) ∧
  (∀ v i up t, swing t ≤ 64 → swing (tapStep v i up t).1 ≤ 64) ∧
  (∀ s (n : Fin 88), exec (.trainingDeadline n) s = .next (trainingDeadline n s)) ∧
  (∀ s n, (s.port n).state = .tap →
    trainingDeadline n s =
      forEach ((remaining (s.port n)).filter fun k => ((s.port n).lane k).ts.code < 5) (failInTraining n) s) ∧
  (∀ s (n : Fin 88), (s.port n).autoRetrain = true → (s.port n).state = .disabled →
    exec (.autoRetrain n) s = .next (startTraining n s)) ∧
  (∀ s (n : Fin 88) f, (s.port n).state = .link →
    exec (.idFrame n f) s = .next (linkCheck n (recomputeFence n (s.modPort n fun p =>
      { p with peerPos := f.position % 256, peerOff := f.portOff % 4, peerPart := f.part.map (· % 64),
               peerGmin := some f.gmin })))) ∧
  (∀ s n g, SMap.wf Port.reset s.ports = true → (s.port n).state = .link → (s.port n).peerGmin = some g →
    s.glob.positionValid = true → (s.port n).wiring = false → (s.port n).idSent = true →
    (wiringBad s n = false → linkCheck n s = portUp n g s) ∧
    (wiringBad s n = true → ((linkCheck n s).port n).wiring = true ∧ ((linkCheck n s).port n).fenced = true ∧
      ((linkCheck n s).port n).state = .link ∧ (linkCheck n s).sw.evWiring = true)) ∧
  (∀ s n g v, SMap.wf Port.reset s.ports = true → v < 8 →
    ((portUp n g s).port n).state = .up ∧ ((portUp n g s).port n).txSeq = 0 ∧ ((portUp n g s).port n).rxSeq = 0 ∧
    ((portUp n g s).port n).retry = [] ∧ SMap.get 0 ((portUp n g s).port n).credit v = g.getD v 0) ∧
  (∀ s (n : Fin 88) part, ((s.port n).state = .up ∨ (s.port n).state = .link) →
    exec (.fenceAdvertisement n part) s =
      .next (linkPoll (recomputeFence n (s.modPort n fun p => { p with peerPart := part.map (·.val) }))))

/-- A good frame in its turn is taken, one out of turn or with a bad check asks for a replay, and a timer resends (R338, R339, R340, R341, R343, R344, R346, R347, notes/assumptions/32.md, notes/assumptions/33.md). -/
def Obligations.FramesReceivedInTurn : Prop :=
  (∀ s (n : Fin 88) f ty fec (c : Instr), (ty, c) ∈ [(FrameType.data, .data n fec f), (.dataT, .dataT n fec f),
      (.idle, .idle n fec f), (.ctrl, .ctrl n fec f), (.ctrl, .recal n fec f), (.ctrl, .restore n fec f),
      (.degrade, .degrade n fec f)] →
    let v := if ty = .idle then s else wakeDomain (portDom n) s
    let w := noteFec n fec v
    ((s.port n).state = .loop → (s.port n).loop = 3 → exec c s = .next (v.emit (.looped n ty f))) ∧
    (s.live n = true → (fecFails fec = true ∨ f.crc ≠ frameCrc ty f) → exec c s = .next (badFrame n w)) ∧
    ((s.port n).state = .link → ty ≠ .degrade → exec c s = .next w) ∧
    ((s.port n).state = .link → fecFails fec = false → f.crc = frameCrc ty f → ty = .degrade →
      exec c s = .next (takeDegrade n f w)) ∧
    (s.live n = true → fecFails fec = false → f.crc = frameCrc ty f →
      let u := takeFields n f w
      (ty.sequenced = true → f.seq.toNat = ((u.port n).rxSeq + 1) % 2 ^ 16 →
        exec c s = .next (sendIdle n (takeSequenced n ty f u))) ∧
      (ty.sequenced = true → f.seq.toNat ≠ ((u.port n).rxSeq + 1) % 2 ^ 16 →
        exec c s = .next (sendIdle n (u.modPort n fun p => { p with askReplay := true }))) ∧
      (ty = .idle → exec c s = .next u) ∧
      (ty = .degrade → exec c s = .next (takeDegrade n f u)))) ∧
  (∀ s (n : Fin 88) fec, s.live n = true →
    exec (.badFrame n fec) s = .next (badFrame n (checkPattern n fec (noteFec n fec s)))) ∧
  (∀ s n, s.live n = true → badFrame n s =
    sendIdle n (countPort n 17 1 0 (s.modPort n fun p => { p with crcErr := cnt16 p.crcErr, askReplay := true }))) ∧
  (∀ s (n : Fin 88), s.live n = true → (s.port n).retry ≠ [] →
    exec (.replayTimer n) s = .next (resend n (s.modPort n fun p => { p with timerReplays := cnt16 p.timerReplays }))) ∧
  (∀ a pre f post, (∀ x ∈ pre, x.seq ≠ a) → f.seq = a → ackDrop a (pre ++ f :: post) = post) ∧
  (∀ a l, (∀ x ∈ l, x.seq ≠ a) → ackDrop a l = l) ∧
  (∀ n ty f s, SMap.wf Port.reset s.ports = true → ty.sequenced = true →
    ((takeSequenced n ty f s).port n).rxSeq = f.seq.toNat ∧ ((takeSequenced n ty f s).port n).askReplay = false) ∧
  (∀ n f s, (f.data.head?.map fun b => b.toNat % 16) = some 0 → (s.port n).failed = 0 →
    takeDegrade n f s = s.modPort n fun p => { p with degrading := false })

/-- A failed lane narrows or downs its port, DEGRADE repeats, and a lane that retrains widens it again (R342, R343, R344, R345, R346, R348). -/
def Obligations.LanesFailAndReturn : Prop :=
  (∀ s (n : Fin 88) (k : Fin 4) cause,
    let u := s.modPort n (Port.modLane k (noteCause cause))
    let p := u.port n
    let f := p.failed ||| 2 ^ k.val ||| p.recalMask
    ((p.state = .up ∨ p.state = .link) → bit p.failed k = false → chooseLanes f = 0 →
      exec (.laneFailure n k cause) s =
        .next (linkPoll (portGoDown n .disabled (u.modLanes n (Port.setFailed f))))) ∧
    ((p.state = .up ∨ p.state = .link) → bit p.failed k = false → chooseLanes f ≠ 0 →
      exec (.laneFailure n k cause) s =
        .next (linkPoll (growFailed n f true (emitFrame n .degrade p.txSeq 31 30 (leBytes 8 f) u)))) ∧
    ((p.state = .detect ∨ p.state = .cap ∨ p.state = .rate ∨ p.state = .tap ∨ p.state = .align) → bit p.failed k = false →
      exec (.laneFailure n k cause) s = .next (linkPoll (failInTraining n k u))) ∧
    (bit p.failed k = true → exec (.laneFailure n k cause) s = .next (linkPoll u))) ∧
  (∀ f, f < 16 → let l := chooseLanes f
    (l = 0 ↔ f = 15) ∧ ∀ k, k < 4 → bit l k = true → bit f k = false) ∧
  (∀ s (n : Fin 88), (s.live n = true ∨ (s.port n).state = .link) → (s.port n).degrading = true →
    exec (.degradeRepeat n) s =
      .next (emitFrame n .degrade (s.port n).txSeq 31 30 (leBytes 8 (s.port n).failed) s)) ∧
  (∀ s (n : Fin 88) (k : Fin 4), s.live n = true → bit (s.port n).failed k = true → ((s.port n).lane k).ts ≠ .idle →
    exec (.laneRetrainComplete n k true) s = .next (linkChores n (s.modPort n (Port.modLane k fun l =>
      { l with ts := .active, locked := true, tries := 0 }))) ∧
    (((s.port n).lane k).tries < 3 → exec (.laneRetrainComplete n k false) s = .next (sendTrain n k (s.modPort n
      fun p => p.modLane k fun l => { l.fresh p.noPrecode with tries := ((s.port n).lane k).tries + 1 }))) ∧
    (3 ≤ ((s.port n).lane k).tries → exec (.laneRetrainComplete n k false) s = .next (s.modPort n
      (Port.modLane k fun l => { l with ts := .idle })))) ∧
  (∀ s (n : Fin 88) (k : Fin 4) m temp,
    exec (.recalibrationStart n k m temp) s = .next (recalibrate n k m.toNat temp s)) ∧
  (∀ s n k m temp, (s.live n = false ∨ (s.port n).recalEn = false ∨ bit (s.port n).failed k = true ∨
      (32 ≤ m ∧ temp = false)) → SMap.wf Port.reset s.ports = true →
    recalibrate n k m temp s = s.modPort n (Port.modLane k fun l => { l with margin := m })) ∧
  (∀ s n k since, (s.port n).recalWant = some (k, since) → s.live n = true → (s.port n).recalEn = true →
    bit (s.port n).failed k = false → chooseLanes ((s.port n).failed ||| 2 ^ k) ≠ 0 →
    (s.port n).recalLane = none → (s.port n).txChange = none → recalibrating s (bundlePorts (n / 4)) = 0 →
    recalibrating s (List.range 88) < 8 → (foregroundBusy s n = false ∨ since + 1000000000 ≤ s.now) →
    retryRoom s n = true →
    tryRecal n s = (sendChange n 1 ((s.port n).failed ||| 2 ^ k) s).modPort n fun p => { p with recalLane := some k })

/-- A host link lost stops the rings of its port, PERST_N and FLR reset its registers, and BAR4 reads and writes device memory (R353, R354, R373, R376, R377, R380, R381, R406, R435, R447, notes/assumptions/38.md). -/
def Obligations.HostLinksAndAperture : Prop :=
  (∀ s (x : Fin 2), (s.host x).linkUp = true →
    exec (.hostLinkDown x) s =
      .next (losePort x reasonLink (s.modHost x fun h => { h with linkUp := false, rate := 0, width := 0 }))) ∧
  (∀ s (x : Fin 2) (r : Fin 4) (w : Fin 3), clocksRun s = true → (s.host x).linkUp = false → (s.host x).perst = false →
    exec (.hostLinkUp x r w) s =
      .next (flushHeld x (s.modHost x fun h => { h with linkUp := true, rate := max 1 r.val, width := w.val }))) ∧
  (∀ s (x : Fin 2), (s.host x).perst = false →
    exec (.perstN x true) s = .next (resetPort x reasonPerst (s.modHost x fun h =>
      { h with perst := true, ready := false, linkUp := false, rate := 0, width := 0 }))) ∧
  (∀ s (x : Fin 2), exec (.perstN x false) s = .next (s.modHost x fun h => { h with perst := false })) ∧
  (∀ s (x : Fin 2), hostCan s x = true → exec (.functionLevelReset x) s = .next (resetPort x reasonFlr s)) ∧
  (∀ s x reason, SMap.wf HostPort.reset s.hosts = true → x < 2 →
    let h := (resetPort x reason s).host x
    h.main = (s.host x).main ∧ h.linkUp = (s.host x).linkUp ∧ h.sq = [] ∧ h.cq = [] ∧ h.msix = [] ∧ h.atc = []) ∧
  (∀ s (x : Fin 2) (r : Fin 256), let q := (s.host x).cqAt r
    q.en = true → q.irqEn = true → q.timer ≠ 0 → q.unsig ≠ 0 → (s.host x).linkUp = true →
    exec (.coalesceTimer x r) s = .next (cqSignal x r s)) ∧
  (∀ s (x : Fin 2) (v : Fin 2048), hostCan s x = true →
    let m := SMap.get Msix.reset (s.host x).msix v
    m.addr < 2 ^ 64 → m.data < 2 ^ 32 →
    let u := s.modHost x fun h => { h with msix := SMap.set Msix.reset h.msix v { m with masked := false, pending := false } }
    (m.pending = false → exec (.msiXUnmask x v) s = .next u) ∧
    (m.pending = true → exec (.msiXUnmask x v) s = .next (u.emit (.msix x v m.addr m.data)))) ∧
  (∀ s (x : Fin 2) (off : BitVec 36) n, hostCan s x = true → apertureOpen s x = false →
    exec (.memoryApertureRead x off n) s = .next ((logAer x false off.toNat s).emit (.apertureUr x off.toNat)) ∧
    ∀ bs, exec (.memoryApertureWrite x off bs) s = .next (logAer x true off.toNat s)) ∧
  (∀ s x w o, SMap.wf HostPort.reset s.hosts = true →
    ((logAer x w o s).host x).aer = match (s.host x).aer with | none => some (w, o) | some e => some e) ∧
  (∀ s (x : Fin 2) (off : BitVec 36) (n : Nat), hostCan s x = true → apertureOpen s x = true → off.toNat + n ≤ 2 ^ 36 →
    let a := (s.host x).memBase * 2 ^ 36 + off.toNat
    ((pieces a n).any fun p => !backed s p.1) = false →
    (devBad s false a n = false → exec (.memoryApertureRead x off n) s =
      .next ((countGranules 0 a n (correctRead a n s)).emit (.apertureData x off.toNat (devRead s a n)))) ∧
    (devBad s false a n = true → exec (.memoryApertureRead x off n) s =
      .next ((logAer x false off.toNat (ueNotes false (pieces a n) s)).emit (.apertureUr x off.toNat))) ∧
    ∀ bs : List Byte, bs.length = n → devBad s true a n = false →
      exec (.memoryApertureWrite x off bs) s = .next (countGranules 1 a n (devWrite a bs s)))

/-- A move of Sillage that waits for nothing more ends as its kind says, and starts follow the arbitration (R249, R260, R265, R266, R268, R269, R270, R271). -/
def Obligations.SillageMovesComplete : Prop :=
  (∀ s (c : BitVec 22) m, readyMove s c.toNat = some m →
    (∀ w, m.kind = .pageIn w → ∀ ok, exec (.pageInComplete c ok) s = .next (sillSettle (finishPageIn m ok s))) ∧
    (∀ t, m.kind = .evict t → exec (.evictionComplete c) s = .next (sillSettle (finishEviction m s))) ∧
    (∀ t, m.kind = .parked t → ∀ ok, exec (.parkedMoveComplete c ok) s = .next (sillSettle (finishParked m ok s))) ∧
    (∀ b, m.kind = .commit b → exec (.commitComplete c) s = .next (sillSettle (finishCommit m s))) ∧
    (m.kind = .detach → exec (.commitComplete c) s = .next (sillSettle (finishDetach m s))) ∧
    (m.kind = .rebuild → exec (.rebuildComplete c) s = .next (sillSettle (finishRebuild m s)))) ∧
  (∀ s m e, m.dst = some e → m.stat = stOk → devBad s false (frameAddr m.frame) pageBytes = true → finishRebuild m s =
    endMove m stUncorrected (releaseFrame m.frame (parkDrop e (ueNotes false (pieces (frameAddr m.frame) pageBytes) s)))) ∧
  (∀ s (c : BitVec 22) i, readyMove s c.toNat = none →
    i ∈ [Instr.pageInComplete c true, .pageInComplete c false, .evictionComplete c, .parkedMoveComplete c true,
      .parkedMoveComplete c false, .commitComplete c, .rebuildComplete c] → exec i s = .next s) ∧
  (∀ s c m, readyMove s c = some m → m.cpn = c ∧ m.inFlight = true ∧ m.left = 0 ∧ moveLinksUp s m = true) ∧
  (∀ s m, let d := parkRead s (copyAt s m.cpn).1 (copyAt s m.cpn).2
    let bad := parkBad s (copyAt s m.cpn).1 (copyAt s m.cpn).2
    let gone := devBad s true (frameAddr m.frame) pageBytes
    (bad = false → gone = false → crc64 d = cptFld s m.cpn 191 128 → finishPageIn m true s =
      endMove m stOk (revive m.cpn m.frame (setCpt m.cpn 5 4 2
        (countGranules 14 (frameAddr m.frame) pageBytes (devWrite (frameAddr m.frame) d s))))) ∧
    (∀ ok, (ok = false ∨ bad = true ∨ gone = true ∨ crc64 d ≠ cptFld s m.cpn 191 128) → finishPageIn m ok s =
      endMove m stUncorrected (lostRecord m.cpn (setState m.cpn pgLost (releaseFrame m.frame s)))) ∧
    (∀ ok e, m.dst = some e → (ok = false ∨ bad = true) → finishParked m ok s =
      endMove m stUncorrected (lostRecord m.cpn (setState m.cpn pgLost (parkDrop e s))))) ∧
  (∀ s, exec .sillageMoveStart s = .next (sillSettle (startNext s))) ∧
  (∀ s v, wantsEviction s = true → victim s = some v →
    exec .eviction s = .next (sillSettle (beginEviction 0 3 v.1 v.2.cpn [] (s.modSill fun l => { l with evicting := true })))) ∧
  (∀ s, wantsEviction s = false → exec .eviction s = .next s) ∧
  (∀ s c, sillMayStart s = true → freePark s 1 + (parkedMoves s 4).length < 512 →
    leastBy (fun c => cptFld s c 31 24 * 2 ^ 22 + c) (parkedPages s fun d => (s.xp d.1).tierOf d.1 == 1) = some c →
    exec .demotion s = .next (sillSettle (queueMove (.parked 2) 4 c none [] s))) ∧
  (∀ s lo hi c cs d, leastBy (·.1) (extentList s) = some lo → leastBy (fun e => 2 ^ 48 - e.1) (extentList s) = some hi →
    sillMayStart s = true → 512 * s.sill.wearDelta < hi.1 - lo.1 →
    parkedPages s (fun d => d.1 == lo.2.1 && lo.2.2 ≤ d.2 && d.2 < lo.2.2 + 512) = c :: cs → extentFrame s hi.2 = some d →
    exec .wearRotation s = .next (sillSettle (queueMove (.parked 2) 5 c (some d) [] s)))

/-- Ages halve and take the referenced bit, stacks refresh and scrub in address order, and expansion links fall and return (R149, R253, R254, R255, R257, R260, R267, R375, R388, R424). -/
def Obligations.AgesScrubsAndExpansionLinks : Prop :=
  (∀ s, s.sill.en = true → ∃ t, exec .agePeriod s = .next t ∧ t = { s with sill := { s.sill with frames := t.sill.frames } } ∧
    ∀ f fr, SMap.get none s.sill.frames f = some fr →
      ∃ g, SMap.get none t.sill.frames f = some g ∧ g.cpn = fr.cpn ∧ g.ref = false ∧
        g.age = fr.age / 2 + (if fr.ref then 128 else 0)) ∧
  (∀ s, s.sill.en = false → exec .agePeriod s = .next s) ∧
  (∀ s (n : Fin 12), (s.hbm n).ready = true → s.domain (hbmDom n) ≠ .park →
    exec (.hbmRefresh n) s = .next (countHbm n 4 1
      ((s.modHbm n fun h => { h with refreshes := h.refreshes + 1 }).emit (.refresh n)))) ∧
  (∀ s (n : Fin 12) a u, (s.hbm n).ready = true → s.domain (hbmDom n) ≠ .park → a = granuleOfStack n (s.hbm n).scrubPos →
    u = correctRead a 64 (countHbm n 15 1 (countHbm n 5 1 (scrubNext n s))) →
    (granuleBad u a = false →
      exec (.patrolScrub n .clean) s = .next u ∧ exec (.patrolScrub n .corrected) s = .next (countHbm n 6 1 u) ∧
      exec (.patrolScrub n .onDie) s = .next (countHbm n 8 1 u) ∧
      ∀ one, exec (.patrolScrub n (.struck one)) s = .next (strike one a u)) ∧
    (granuleBad u a = true → ∀ f, f = .clean ∨ f = .corrected → exec (.patrolScrub n f) s = .next (scrubBad a u))) ∧
  (∀ s (n : Fin 12) a u, (s.hbm n).ready = true → s.domain (hbmDom n) ≠ .park → a = granuleOfStack n (s.hbm n).scrubPos →
    u = correctRead a 64 (countHbm n 15 1 (countHbm n 5 1 (scrubNext n s))) →
    exec (.patrolScrub n .uncorrectable) s = .next (scrubBad a u)) ∧
  (∀ s a, a / 64 ∈ (scrubBad a s).ue ∨ repairable { s with
    ue := if s.ue.contains (a / 64) then s.ue else a / 64 :: s.ue, ce := s.ce.filter (· != a / 64) } a ≠ none) ∧
  (∀ s n, SMap.wf Hbm.reset s.hbms = true →
    ((s.hbm n).scrubPos + 1 < 2 ^ 30 → ((scrubNext n s).hbm n).scrubPos = (s.hbm n).scrubPos + 1) ∧
    (2 ^ 30 ≤ (s.hbm n).scrubPos + 1 → ((scrubNext n s).hbm n).scrubPos = 0)) ∧
  (∀ n k m : Nat, n < 12 → granuleOfStack n k = granuleOfStack n m → k = m) ∧
  (∀ s (c : Fin 16) (k : Fin 8) w f, s.boot.bistDone = true → s.boot.thermtrip = false →
    let u := countCore c k 45 1 s
    let r := scrubWord f w (u.core c k).spmCe (u.core c k).spmBad
    let i := scrubWord f (w / 2) (s.core c k).imemCe (s.core c k).imemBad
    let q := scrubWord f w (s.cluster c).poolCe (s.cluster c).poolBad
    (8 * w < 2 ^ 21 → exec (.scrubDeferralExpiry (.spm c k) w f) s =
      .next (u.modCore c k fun x => { x with spmCe := r.2.1, spmBad := r.2.2 })) ∧
    (8 * w < 2 ^ 18 → exec (.scrubDeferralExpiry (.imem c k) w f) s =
      .next (s.modCore c k fun x => { x with imemCe := i.2.1, imemBad := i.2.2 })) ∧
    (8 * w < 2 ^ 24 → exec (.scrubDeferralExpiry (.pool c) w f) s =
      .next (countEpb c 31 (b2n q.1) (s.modCluster c fun x => { x with poolCe := q.2.1, poolBad := q.2.2 }))) ∧
    (∀ one, exec (.scrubDeferralExpiry (.regs c k) w (.struck one)) s = .next (s.modCore c k fun x => { x with regBad := true }))) ∧
  (∀ w ce bad, w ∉ (scrubWord .clean w ce bad).2.1 ∧ (scrubWord .clean w ce bad).2.2 = bad ∧
    ((scrubWord .clean w ce bad).1 = true ↔ w ∈ ce) ∧
    w ∈ (scrubWord .uncorrectable w ce bad).2.2 ∧ (scrubWord .uncorrectable w ce bad).1 = false) ∧
  (∀ s b w f, s.boot.bistDone = false → exec (.scrubDeferralExpiry b w f) s = .next s) ∧
  (∀ s (n : Fin 4), (s.xp n).linkUp = true → exec (.xpLinkDown n) s =
    .next (xpRecord n false (s.modXp n fun x => { x with linkUp := false, rate := 0, narrow := false, fell := true }))) ∧
  (∀ s (n : Fin 4) fast nar bad, clocksRun s = true → SMap.wf Xp.reset s.xps = true → (s.xp n).linkUp = false →
    s.mgmt.up = true → (s.xp n).devReady = true →
    let u := s.modXp n fun x => { x with linkUp := true, rate := if fast then 2 else 1, narrow := nar, fell := false,
                                         devReady := true, poison := bad }
    ((s.xp n).fell = false → exec (.xpLinkUp n fast nar bad) s = .next (sillSettle u)) ∧
    ((s.xp n).fell = true → exec (.xpLinkUp n fast nar bad) s = .next (sillSettle (xpRecord n true u)))) ∧
  (∀ s (n : Fin 4), clearWaits s n = false → (s.xp n).linkUp = false → (s.xp n).fell = true →
    (s.sill.moves.filter (fun m => (movePorts s m).contains n.val) = [] →
      exec (.xpRetrainWaitExpiry n) s = .next (sillSettle s)) ∧
    ∀ m, s.sill.moves.filter (fun m => (movePorts s m).contains n.val) = [m] →
      (∀ x ∈ s.sill.moves, x.id = m.id → x = m) →
      exec (.xpRetrainWaitExpiry n) s = .next (sillSettle (failMove m s)))

/-- The side-band target answers common commands, register access and image delivery, and nothing in reset (R446, R448, R455, R456, R457, R458, R459, notes/assumptions/2.md, notes/assumptions/44.md, notes/assumptions/46.md). -/
def Obligations.SidebandTargetCommands : Prop :=
  (∀ s, s.boot.out = true →
    (∀ a : BitVec 7, s.sb.daddr = 0 →
      exec (.setdasa a) s = .next { s with sb := { s.sb with daddr := a.toNat } } ∧
      exec (.entdaa a) s = .next { s with sb := { s.sb with daddr := a.toNat } }) ∧
    (∀ a : BitVec 7, s.sb.daddr ≠ 0 → exec (.setdasa a) s = .next s ∧ exec (.entdaa a) s = .next s) ∧
    exec .rstdaa s = .next { s with sb := { s.sb with daddr := 0 } } ∧
    exec .getpid s = .next (s.emit (.i3c (fitBytes 6 Config.i3cPid))) ∧
    exec .getbcr s = .next (s.emit (.i3c [Config.i3cBcr])) ∧
    exec .getdcr s = .next (s.emit (.i3c [Config.i3cDcr])) ∧
    exec .getstatus s =
      .next ({ s with free := s.free + 1 }.emit (.i3c (fitBytes 2 (Config.i3cStatus s.free)))) ∧
    exec .enec s = .next { s with sb := { s.sb with ibi := true } } ∧
    exec .disec s = .next { s with sb := { s.sb with ibi := false } }) ∧
  (∀ s msg, s.boot.out = true → msg.length ≤ 1024 → leAt msg 0 1 = 0 →
    (setsEid msg = none → exec (.mctpControl msg) s = .next (s.emit (.mctp (0 :: Config.mctpControlBody msg)))) ∧
    (∀ e, setsEid msg = some e → exec (.mctpControl msg) s =
      .next ({ s with sb := { s.sb with eid := e } }.emit (.mctp (0 :: Config.mctpControlBody msg))))) ∧
  (∀ s (tag n : Byte) (z : BitVec 16) (a : Quad) data, s.boot.out = true →
    ((z ≠ 0 ∨ (a.toNat < apertureBytes ∧ (a.toNat % 8 ≠ 0 ∨ n = 0 ∨ 64 < n.toNat))) →
      exec (.read tag z n a) s = .next (vendorReply cmdRead tag n a.toNat stMalformed [] s) ∧
      exec (.write tag z n a data) s = .next (vendorReply cmdWrite tag n a.toNat stMalformed [] s)) ∧
    (z = 0 → apertureBytes ≤ a.toNat → exec (.read tag z n a) s = .next (vendorReply cmdRead tag n a.toNat stBounds [] s) ∧
      exec (.write tag z n a data) s = .next (vendorReply cmdWrite tag n a.toNat stBounds [] s)) ∧
    (a.toNat + 8 * n.toNat ≤ apertureBytes → a.toNat % 8 = 0 → n ≠ 0 → n.toNat ≤ 64 →
      (∀ bs t, quadsRead .sideband n.toNat a.toNat s = (bs, true, t) →
        exec (.read tag 0 n a) s = .next (vendorReply cmdRead tag n a.toNat stOk bs t)) ∧
      (∀ bs t, quadsRead .sideband n.toNat a.toNat s = (bs, false, t) →
        exec (.read tag 0 n a) s = .next (vendorReply cmdRead tag n a.toNat stPermission [] t)) ∧
      (∀ ok t, quadsWrite .sideband n.toNat a.toNat (fitBytes (8 * n.toNat) data) s = (ok, t) →
        exec (.write tag 0 n a data) s =
          .next (vendorReply cmdWrite tag n a.toNat (if ok then stOk else stPermission) [] t)))) ∧
  (∀ s (tag img : Byte) (total : Quad), s.boot.out = true → img.toNat ≤ 1 →
    (imageWanted s (img == 1) = false → exec (.imageBegin tag 0 img total) s =
      .next (vendorReply cmdImageBegin tag img total.toNat stStateReject [] s)) ∧
    (imageWanted s (img == 1) = true → total.toNat ≤ imageMax (img == 1) → ∃ t, exec (.imageBegin tag 0 img total) s =
      .next (vendorReply cmdImageBegin tag img total.toNat stOk [] t) ∧
      t.sb.delivery = some { steward := img == 1, total := total.toNat, bytes := [] })) ∧
  (∀ s tag (off : Quad) (data : List Byte) d, s.boot.out = true → s.sb.delivery = some d → off.toNat = d.bytes.length →
    16 ≤ data.length → data.length ≤ 1008 → off.toNat + data.length ≤ d.total →
    exec (.imageData tag 0 off data) s = .next (vendorReply cmdImageData tag 0 off.toNat stOk []
      { s with sb := { s.sb with delivery := some { d with bytes := d.bytes ++ data } } })) ∧
  (∀ s tag d i, s.boot.out = true → s.sb.delivery = some d → imageWanted s d.steward = true → d.bytes.length = d.total →
    exec (.imageEnd tag 0 (some i)) s = .next (vendorReply cmdImageEnd tag 0 0 stOk []
      (imageTaken d.steward i { s with sb := { s.sb with delivery := none } })) ∧
    exec (.imageEnd tag 0 none) s = .next (vendorReply cmdImageEnd tag 0 0 stCheckFailed []
      (imageFailed d.steward { s with sb := { s.sb with delivery := none } }))) ∧
  (∀ s (tag img : Byte) (z : BitVec 16) (off : Quad) (data : List Byte) im, s.boot.out = true → z ≠ 0 →
    exec (.imageBegin tag z img off) s = .next (vendorReply cmdImageBegin tag img off.toNat stMalformed [] s) ∧
    (data.length ≤ 1008 →
      exec (.imageData tag z off data) s = .next (vendorReply cmdImageData tag 0 off.toNat stMalformed [] s)) ∧
    exec (.imageEnd tag z im) s = .next (vendorReply cmdImageEnd tag 0 0 stMalformed [] s)) ∧
  (∀ s i, s.boot.out = false → i ∈ [Instr.getpid, .getbcr, .getdcr, .getstatus, .enec, .disec, .rstdaa] →
    exec i s = .next s)

/-- Steward answers PLDM from its refreshed sensors and SPDM with a report; while it is not up hardware answers in its place (R440, R456, R460, R461, notes/assumptions/44.md, notes/assumptions/45.md). -/
def Obligations.PldmAndSpdmAnswers : Prop :=
  (∀ s, s.boot.out = true → s.mgmt.up = true →
    exec .gettid s = .next (pldmReply 0 0x02 0 (leBytes 1 s.mgmt.tid) s) ∧
    (∀ t : Byte, exec (.settid t) s =
      .next (pldmReply 0 0x01 0 [] { s with mgmt := { s.mgmt with tid := t.toNat } })) ∧
    exec .getpldmversion s = .next (pldmReply 0 0x03 0 Config.pldmVersion s) ∧
    exec .getpldmtypes s = .next (pldmReply 0 0x04 0 Config.pldmTypes s) ∧
    exec .getpldmcommands s = .next (pldmReply 0 0x05 0 Config.pldmCommands s) ∧
    (∀ n, exec (.getpdr n) s = .next (pldmReply 2 0x51 0 (Config.pldmPdr n) s)) ∧
    (∀ x, exec (.getsensorreading x) s = .next (numericReading x s)) ∧
    (∀ x, exec (.getstatesensorreadings x) s = .next (stateReading x s)) ∧
    exec .sensorRefresh s = .next { s with mgmt := { s.mgmt with sensors := sensorValues s } } ∧
    (∀ q : List Byte, q.length < 1024 → exec (.spdmNegotiation q) s = .next (s.emit (.mctp (0x05 :: Config.spdmBody q))))) ∧
  (∀ s, s.boot.out = true → s.mgmt.up = false →
    exec .gettid s = .next (pldmReply 0 0x02 pldmNotReady [] s) ∧
    exec .getpldmtypes s = .next (pldmReply 0 0x04 pldmNotReady [] s) ∧
    (∀ n, exec (.getMeasurements n) s = .next (spdmError spdmBusy s)) ∧
    (∀ q : List Byte, q.length < 1024 → exec (.spdmNegotiation q) s = .next (spdmError spdmBusy s))) ∧
  (∀ s x, x ∈ [PldmSensor.tjMax, .hbmMax, .power, .limit, .clearPercent] →
    numericReading x s = pldmReply 2 0x11 0 (Config.pldmNumericHead ++ leBytes 4 (sensorValue s x)) s ∧
    stateReading x s = pldmReply 2 0x21 pldmBadSensor [] s) ∧
  (∀ s x, x ∈ [PldmSensor.pkgState, .capUnmet, .throttle, .clearPhase] →
    stateReading x s = pldmReply 2 0x21 0 (Config.pldmStateHead ++ leBytes 1 (sensorValue s x)) s ∧
    numericReading x s = pldmReply 2 0x11 pldmBadSensor [] s) ∧
  (∀ s (nonce : List Byte), s.boot.out = true → s.mgmt.up = true → nonce.length = 32 →
    (s.sealCore.identFail = true → exec (.getMeasurements nonce) s = .next (spdmError spdmUnsupported s)) ∧
    (s.sealCore.identFail = false → s.sealCore.ident = true → (s.mbox 2).busy = false →
      (relayed s nonce = false → exec (.getMeasurements nonce) s = .next (spdmError spdmNotReady
        (mboxRequest 2 (0x02 :: zeros 15 ++ nonce) { s with mgmt := { s.mgmt with relay := some nonce } }))) ∧
      (relayed s nonce = true → (s.mbox 2).status = stOk → exec (.getMeasurements nonce) s =
        .next ({ s with mgmt := { s.mgmt with relay := none } }.emit
          (.mctp (leBytes 1 0x05 ++ leBytes 1 0x13 ++ leBytes 1 0x60 ++ Config.spdmBlock ++ (s.mbox 2).rsp))))))

/-- Every step keeps the maps of repeated units, their registers and their buckets in canonical form (spec/05_compute_cores.md, spec/06_instruction_list.md, spec/10_switch_and_routing.md, R183). -/
def Obligations.MapsStayCanonical : Prop :=
  ∀ s t : State, MapsCanonical s → step s = .next t → MapsCanonical t

/-- A command of a core operation issues the bundle at PC that holds the operation, and a held bundle issues once it may go (R143, R144, R145, R170, R178, R186, R189, R193, R195, R198, R202, R203). -/
def Obligations.EveryRowIssuesItsBundle : Prop :=
  (∀ s (c : Fin 16) (k : Fin 8) b, HeldFree s c k b →
    (syncReady (arriving c k b s) c k false b = true →
      exec (.stalledBundleIssue c k) s = .next (issueBundle c k b (arriving c k b s))) ∧
    ∀ a e l p n y, b.x = some (.fwait a e l p n y) →
      (flagMet s c k y ((s.core c k).sreg a) ((s.core c k).sreg e) n = true →
        exec (.fwaitConditionMet c k) s = .next (issueBundle c k b s)) ∧
      ((s.core c k).sreg l ≠ 0 → exec (.fwaitLimitExpiry c k) s = .next (issueBundle c k b s))) ∧
  ∀ s (c : Fin 16) (k : Fin 8) b, Issues s c k b →
    let done : Host.Outcome State Fault Refusal := .next (issueBundle c k b (arriving c k b s))
    ((∀ o d a e, b.s = .alu o d a e → exec (.intAlu c k) s = done) ∧
     (b = soleS .nop → exec (.intAlu c k) s = done) ∧
     (∀ d a e, b.s = .mul .mul d a e → exec (.mul c k) s = done) ∧
     (∀ d a e, b.s = .mul .mulhu d a e → exec (.mulhu c k) s = done) ∧
     (∀ d a e, b.s = .mul .mulh d a e → exec (.mulh c k) s = done) ∧
     (∀ d a e f, b.s = .sel d a e f → exec (.sel c k) s = done) ∧
     (∀ o d a e, b.s = .alui o d a e → exec (.aluImmediate c k) s = done) ∧
     (∀ d q i, b.s = .mov16 false d q i → exec (.mov16 c k) s = done) ∧
     (∀ d q i, b.s = .mov16 true d q i → exec (.mov16Z c k) s = done) ∧
     (∀ z x d a i, b.s = .ld false z x d a i → exec (.ldSpm c k) s = done) ∧
     (∀ z x d a i, b.s = .ld true z x d a i → exec (.ldPool c k) s = done) ∧
     (∀ z d a i, b.s = .st false z d a i → exec (.stSpm c k) s = done) ∧
     (∀ z d a i, b.s = .st true z d a i → exec (.stPool c k) s = done) ∧
     (∀ o d a e f, b.s = .fp o d a e f → exec (.fpArith c k) s = done) ∧
     (∀ o d a e, b.s = .fcmp o d a e → exec (.fpCompare c k) s = done) ∧
     (∀ d a, b.s = .fcvtI d a → exec (.fcvtF32I64 c k) s = done) ∧
     (∀ d a, b.s = .icvtF d a → exec (.fcvtI64F32 c k) s = done) ∧
     (∀ p a, b.s = .pset p a → exec (.pset c k) s = done) ∧
     (∀ p a, b.s = .pget p a → exec (.pget c k) s = done) ∧
     (∀ o d a e, b.s = .plog o d a e → exec (.predLogic c k) s = done) ∧
     (∀ d p, b.s = .pcnt d p → exec (.pcnt c k) s = done) ∧
     (∀ o a e f, b.s = .br o a e f → exec (.branch c k) s = done) ∧
     (∀ p f, b.s = .bp false p f → exec (.bpany c k) s = done) ∧
     (∀ p f, b.s = .bp true p f → exec (.bpnone c k) s = done) ∧
     (∀ t, b.s = .j t → exec (.j c k) s = done) ∧
     (∀ d t, b.s = .jal d t → exec (.jal c k) s = done) ∧
     (∀ a, b.s = .jr a → exec (.jr c k) s = done) ∧
     (∀ d i, b.s = .csRd d i → exec (.csRd c k) s = done) ∧
     (∀ a i, b.s = .csWr a i → exec (.csWr c k) s = done) ∧
     (b.s = .wait → exec (.wait c k) s = done) ∧
     (b.s = .halt → exec (.halt c k) s = done)) ∧
    (∀ p,
     (∀ o d a e, b.v = some ⟨.int o d a e, p⟩ → exec (.vintAlu c k) s = done) ∧
     (∀ o d a e, b.v = some ⟨.imin o d a e, p⟩ → exec (.vintMinmax c k) s = done) ∧
     (∀ o d a e, b.v = some ⟨.icmp o d a e, p⟩ → exec (.vcmpInt c k) s = done) ∧
     (∀ d a e f, b.v = some ⟨.sel d a e f, p⟩ → exec (.vsel c k) s = done) ∧
     (∀ o d a e f, b.v = some ⟨.fp o d a e f, p⟩ → exec (.vfpArith c k) s = done) ∧
     (∀ x d a e, b.v = some ⟨.fmin x d a e, p⟩ → exec (.vminmaxF32 c k) s = done) ∧
     (∀ o d a e, b.v = some ⟨.fcmp o d a e, p⟩ → exec (.vcmpF32 c k) s = done) ∧
     (∀ d a e, b.v = some ⟨.div d a e, p⟩ → exec (.vdivVsqrt c k) s = done) ∧
     (∀ d a, b.v = some ⟨.sqrt d a, p⟩ → exec (.vdivVsqrt c k) s = done) ∧
     (∀ d a, b.v = some ⟨.exp d a, p⟩ → exec (.vexp c k) s = done) ∧
     (∀ d a e, b.v = some ⟨.expd d a e, p⟩ → exec (.vexpd c k) s = done) ∧
     (∀ d a, b.v = some ⟨.fcvtI d a, p⟩ → exec (.vcvtInt c k) s = done) ∧
     (∀ d a, b.v = some ⟨.icvtF d a, p⟩ → exec (.vcvtInt c k) s = done) ∧
     (∀ x d a, b.v = some ⟨.narrow false x d a, p⟩ → exec (.vcvtBf16 c k) s = done) ∧
     (∀ x d a, b.v = some ⟨.narrow true x d a, p⟩ → exec (.vcvtF16 c k) s = done) ∧
     (∀ x d a, b.v = some ⟨.widen x d a, p⟩ → exec (.vcvtWiden c k) s = done) ∧
     (∀ o d a, b.v = some ⟨.red o d a, p⟩ → exec (.vred c k) s = done) ∧
     (∀ d a t, b.v = some ⟨.tmax d a t, p⟩ → exec (.vtmax c k) s = done) ∧
     (∀ a t, b.v = some ⟨.texp a t, p⟩ → exec (.vtexp c k) s = done) ∧
     (∀ d t, b.v = some ⟨.tsum d t, p⟩ → exec (.vtsum c k) s = done) ∧
     (∀ d t a, b.v = some ⟨.tget d t a, p⟩ → exec (.vtget c k) s = done) ∧
     (∀ d t a, b.v = some ⟨.tput d t a, p⟩ → exec (.vtput c k) s = done) ∧
     (∀ x d a i, b.v = some ⟨.ld x d a i, p⟩ → exec (.vld c k) s = done) ∧
     (∀ x d a i, b.v = some ⟨.ldbc x d a i, p⟩ → exec (.vldBc c k) s = done) ∧
     (∀ x d a i, b.v = some ⟨.st x d a i, p⟩ → exec (.vst c k) s = done) ∧
     (∀ d a, b.v = some ⟨.mov d a, p⟩ → exec (.vmovS c k) s = done) ∧
     (∀ d a l, b.v = some ⟨.ext d a l, p⟩ → exec (.vext c k) s = done)) ∧
    ((∀ f t a e m z x, b.m = some (.mma f t a e m z x) → exec (.mma c k) s = done) ∧
     (∀ t v, b.m = some (.mscale t v) → exec (.mscale c k) s = done) ∧
     (∀ t a f z n, b.m = some (.mst t a f z n) → exec (.mst c k) s = done) ∧
     (∀ t a n, b.m = some (.wst t a n) → exec (.wst c k) s = done) ∧
     (∀ t a, b.m = some (.wld t a) → exec (.wld c k) s = done) ∧
     (∀ t w n, b.m = some (.wcvt t w n) → exec (.wcvt c k) s = done)) ∧
    ((∀ q a w, b.x = some (.issue q a w) → exec (.teIssue c k) s = done) ∧
     (∀ q a n w, b.x = some (.arm q a n w) → exec (.teArm c k) s = done) ∧
     (∀ q a u w, b.x = some (.xissue q a u w) → exec (.teXissue c k) s = done) ∧
     (∀ a i, b.x = some (.cnt a i) → exec (.teCnt c k) s = done) ∧
     (∀ a i, b.x = some (.err a i) → exec (.teErr c k) s = done) ∧
     (∀ a i, b.x = some (.wait a i) → exec (.teWait c k) s = done) ∧
     (∀ x, b.x = some (.rel x) → exec (.rel c k) s = done) ∧
     (∀ x, b.x = some (.acq x) → exec (.acq c k) s = done) ∧
     (∀ r a, b.x = some (.barCfg r a) → exec (.barCfg c k) s = done) ∧
     (∀ r, b.x = some (.barArrive r) → exec (.barArrive c k) s = done) ∧
     (∀ r, b.x = some (.barWait r) → exec (.barWait c k) s = done) ∧
     (∀ r, b.x = some (.barSync r) → exec (.barSync c k) s = done) ∧
     (∀ a e l p n x, b.x = some (.fwait a e l p n x) → exec (.fwait c k) s = done) ∧
     (∀ m, b.x = some (.wake m) → exec (.wakeCore c k) s = done) ∧
     (∀ a, b.x = some (.watch a) → exec (.watch c k) s = done))

/-- A bundle that fails a check stops its core before any effect, one that must wait is held, and a held one issues later (R144, R145, R148, R170, R178, R181, R186, R187, R203, notes/assumptions/48.md, notes/assumptions/77.md). -/
def Obligations.BundlesStopOrAreHeld : Prop :=
  let rows : Fin 16 → Fin 8 → List Instr := fun c k =>
    [.intAlu c k, .mul c k, .mulhu c k, .mulh c k, .sel c k, .aluImmediate c k, .mov16 c k, .mov16Z c k, .ldSpm c k,
     .ldPool c k, .stSpm c k, .stPool c k, .fpArith c k, .fpCompare c k, .fcvtF32I64 c k, .fcvtI64F32 c k, .pset c k,
     .pget c k, .predLogic c k, .pcnt c k, .branch c k, .bpany c k, .bpnone c k, .j c k, .jal c k, .jr c k, .trap c k,
     .csRd c k, .csWr c k, .wait c k, .halt c k, .vintAlu c k, .vld c k, .vst c k, .mma c k, .wcvt c k, .teIssue c k,
     .teWait c k, .barSync c k, .fwait c k, .watch c k]
  (∀ s c k i, i ∈ rows c k →
    ((s.core c k).run ≠ .running → exec i s = .next s) ∧
    ((s.core c k).run = .running → ∀ slot pc cause code, look s c k = .stop slot pc cause code →
      exec i s = .next (takeStop c k slot pc cause code s))) ∧
  (∀ s c k, let x := s.core c k
    (imemBundles ≤ x.pc → look s c k = .stop none (imemBundles - 1) causeIfetch 0) ∧
    (x.pc < imemBundles → (x.regBad = true ∨ x.pc ∈ x.imemBad) → look s c k = .stop none x.pc causeParity 0) ∧
    (x.pc < imemBundles → x.regBad = false → x.pc ∉ x.imemBad → ∀ slot, decodeBundle (SMap.get 0 x.imem x.pc) = .error slot →
      look s c k = .stop (some slot) x.pc causeIllegalOp 0) ∧
    ∀ b, x.pc < imemBundles → x.regBad = false → x.pc ∉ x.imemBad → decodeBundle (SMap.get 0 x.imem x.pc) = .ok b →
      (illegalBundle b = true → look s c k = .stop none x.pc causeIllegalBundle 0) ∧
      (illegalBundle b = false →
        (∀ code, b.s = .trap code → look s c k = .stop (some 0) x.pc causeTrap code) ∧
        (∀ slot f, bundleFault s c k b = some (slot, f) → look s c k = .stop (some slot) x.pc f.cause f.code) ∧
        (∀ slot, bundleFault s c k b = none → parityFault s c k b = some slot →
          look s c k = .stop (some slot) x.pc causeParity 0) ∧
        (bundleFault s c k b = none → parityFault s c k b = none → look s c k = .bundle b))) ∧
  (∀ s c k slot pc cause code, MapsCanonical s → (s.core c k).run = .running → (s.core c k).matrix = [] →
    cause ≠ causeParity →
    ((takeStop c k (some slot) pc cause code s).core c k) =
      { s.core c k with run := .halted, stop := stopValue cause pc slot code, issued := true } ∧
    ((takeStop c k none pc cause code s).core c k) =
      { s.core c k with
        run := .halted, stop := stopValue cause pc (s.draw % 4) code, issued := true }) ∧
  (∀ s c k slot pc code, MapsCanonical s → (s.core c k).run = .running → (s.core c k).matrix = [] →
    ((takeStop c k (some slot) pc causeParity code s).core c k) =
      { s.core c k with
        run := .halted, stop := stopValue causeParity pc slot code, issued := true, parStop := true, regBad := false } ∧
    ((takeStop c k none pc causeParity code s).core c k) =
      { s.core c k with
        run := .halted, stop := stopValue causeParity pc (s.draw % 4) code, issued := true, parStop := true,
        regBad := false }) ∧
  (∀ s (c : Fin 16) (k : Fin 8) b cause, look s c k = .bundle b → stallCause s c k b = some cause →
    ((s.core c k).run = .running →
      (∀ o d a e, b.s = .alu o d a e → exec (.intAlu c k) s = .next (hold c k cause s)) ∧
      (∀ t a f z n, b.m = some (.mst t a f z n) → exec (.mst c k) s = .next (hold c k cause s)) ∧
      (∀ a i, b.x = some (.wait a i) → exec (.teWait c k) s = .next (hold c k cause s))) ∧
    ((s.core c k).run = .held → exec (.stalledBundleIssue c k) s = .next (hold c k cause s))) ∧
  (∀ s c k cause, MapsCanonical s → (hold c k cause s).core c k = { s.core c k with run := .held }) ∧
  (∀ s (c : Fin 16) (k : Fin 8) b a e l p n y, (s.core c k).run = .running → look s c k = .bundle b →
    stalls s c k b = false → b.x = some (.fwait a e l p n y) →
    flagMet s c k y ((s.core c k).sreg a) ((s.core c k).sreg e) n = false →
    exec (.fwait c k) s = .next (hold c k 16 s)) ∧
  (∀ s (c : Fin 16) (k : Fin 8) b, HeldFree s c k b →
    (syncReady (arriving c k b s) c k false b = true →
      exec (.stalledBundleIssue c k) s = .next (issueBundle c k b (arriving c k b s))) ∧
    ∀ a e l p n x, b.x = some (.fwait a e l p n x) →
      let met := flagMet s c k x ((s.core c k).sreg a) ((s.core c k).sreg e) n
      (met = true → exec (.fwaitConditionMet c k) s = .next (issueBundle c k b s)) ∧
      ((s.core c k).sreg l ≠ 0 → exec (.fwaitLimitExpiry c k) s = .next (issueBundle c k b s)) ∧
      (b = soleX (.fwait a e l p n x) → MapsCanonical s →
        ((issueBundle c k b s).core c k) = mended b (s.core c k)
          { goesOn ((s.core c k).setP p (if met then allLanes else 0)) with
            loaded := if x then metScopes s c (s.core c k) ((s.core c k).sreg a) 8 else (s.core c k).loaded }))

/-- A bundle with one S-slot operation writes what R189 to R192 say, and its core goes on, branches, waits or halts (R152, R153, R180, R181, R183, R189, R190, R191, R192, R205, R171). -/
def Obligations.ScalarOperationsCompute : Prop :=
  (∀ s (c : Fin 16) (k : Fin 8), MapsCanonical s → let x := s.core c k
    (Computes s c k (soleS .nop) (.intAlu c k) (goesOn x)) ∧
    (∀ o d a e, Computes s c k (soleS (.alu o d a e)) (.intAlu c k) (goesOn (x.setS d (o.eval (x.sreg a) (x.sreg e))))) ∧
    (∀ d a e, Computes s c k (soleS (.mul .mul d a e)) (.mul c k) (goesOn (x.setS d (MulOp.eval .mul (x.sreg a) (x.sreg e))))) ∧
    (∀ d a e, Computes s c k (soleS (.mul .mulhu d a e)) (.mulhu c k)
      (goesOn (x.setS d (MulOp.eval .mulhu (x.sreg a) (x.sreg e))))) ∧
    (∀ d a e, Computes s c k (soleS (.mul .mulh d a e)) (.mulh c k)
      (goesOn (x.setS d (MulOp.eval .mulh (x.sreg a) (x.sreg e))))) ∧
    (∀ d a e f, Computes s c k (soleS (.sel d a e f)) (.sel c k)
      (goesOn (x.setS d (if x.sreg f = 0 then x.sreg e else x.sreg a)))) ∧
    (∀ o d a i, Computes s c k (soleS (.alui o d a i)) (.aluImmediate c k) (goesOn (x.setS d (o.eval (x.sreg a) (imm12 i))))) ∧
    (∀ d q i, Computes s c k (soleS (.mov16 false d q i)) (.mov16 c k) (goesOn (x.setS d (mov16Value false (x.sreg d) q i)))) ∧
    (∀ d q i, Computes s c k (soleS (.mov16 true d q i)) (.mov16Z c k) (goesOn (x.setS d (i * 2 ^ (16 * q))))) ∧
    (∀ o d a e f, Computes s c k (soleS (.fp o d a e f)) (.fpArith c k)
      (goesOn (x.setS d (o.eval (x.s32 a) (x.s32 e) (x.s32 f))))) ∧
    (∀ o d a e, Computes s c k (soleS (.fcmp o d a e)) (.fpCompare c k)
      (goesOn (x.setS d (if o.holds (x.s32 a) (x.s32 e) then 1 else 0)))) ∧
    (∀ d a, Computes s c k (soleS (.fcvtI d a)) (.fcvtF32I64 c k)
      (goesOn (x.setS d (Fmt.f32.round (FV.ofInt (toSigned 64 (x.sreg a))))))) ∧
    (∀ d a, let r := FV.toIntSat 64 (Fmt.f32.decode (x.s32 a))
      Computes s c k (soleS (.icvtF d a)) (.fcvtI64F32 c k) { goesOn (x.setS d r.bits) with
        exactRange := x.exactRange || (Narrowed.sticky r).range
        sat := x.sat || (Narrowed.sticky r).sat
        nan := x.nan || (Narrowed.sticky r).nan }) ∧
    (∀ p a, Computes s c k (soleS (.pset p a)) (.pset c k) (goesOn (x.setP p (x.sreg a)))) ∧
    (∀ d p, Computes s c k (soleS (.pget d p)) (.pget c k) (goesOn (x.setS d (x.preg p)))) ∧
    (∀ o d a e, Computes s c k (soleS (.plog o d a e)) (.predLogic c k) (goesOn (x.setP d (o.eval (x.preg a) (x.preg e))))) ∧
    (∀ d p, Computes s c k (soleS (.pcnt d p)) (.pcnt c k) (goesOn (x.setS d (popcount (x.preg p))))) ∧
    (∀ d i, Computes s c k (soleS (.csRd d i)) (.csRd c k)
      (goesOn (x.setS d (csValue (correctBundle c k (soleS (.csRd d i)) s) c k i)))) ∧
    (∀ a i, Computes s c k (soleS (.csWr a i)) (.csWr c k) (goesOn (csWrite i (x.sreg a) x))) ∧
    (∀ z e d a i, Computes s c k (soleS (.ld false z e d a i)) (.ldSpm c k)
      (goesOn (x.setS d (loadValue e (coreBytes s c k false (saddr x a i) z))))) ∧
    (∀ z e d a i, let o := saddr x a i
      Computes s c k (soleS (.ld true z e d a i)) (.ldPool c k)
        { goesOn (x.setS d (loadValue e (coreBytes s c k true o z))) with loaded := metScopes s c x o z }) ∧
    (∀ z d a i, let o := saddr x a i
      Computes s c k (soleS (.st false z d a i)) (.stSpm c k)
        (goesOn (x.spmPut o (leBytes z (x.sreg d))))) ∧
    (∀ z d a i, Computes s c k (soleS (.st true z d a i)) (.stPool c k) (goesOn x)) ∧
    (∀ z d a i, Issues s c k (soleS (.st true z d a i)) → ∃ t, exec (.stPool c k) s = .next t ∧
      (t.cluster c).pool = (s.cluster c).pool.writeN (saddr x a i) (leBytes z (x.sreg d)) ∧
      ∀ c', c' ≠ c.val → (t.cluster c').pool = (s.cluster c').pool) ∧
    (∀ op i, (∃ o a e f, (op, i) = (SOp.br o a e f, Instr.branch c k)) ∨ (∃ p f, (op, i) = (.bp false p f, .bpany c k)) ∨
      (∃ p f, (op, i) = (.bp true p f, .bpnone c k)) ∨ (∃ t, (op, i) = (.j t, .j c k)) ∨ (∃ a, (op, i) = (.jr a, .jr c k)) →
      (branchTo x op = none → Computes s c k (soleS op) i (goesOn x)) ∧
      (∀ t : Nat, branchTo x op = some t → t < imemBundles → Computes s c k (soleS op) i { goesOn x with pc := t }) ∧
      (∀ t : Int, branchTo x op = some t → (t < 0 ∨ imemBundles ≤ t) → x.matrix = [] →
        Computes s c k (soleS op) i { goesOn x with run := .halted, stop := stopValue causeIfetch x.pc 0 0 })) ∧
    (∀ d t, t < imemBundles → Computes s c k (soleS (.jal d t)) (.jal c k) { goesOn (x.setS d (x.pc + 1)) with pc := t }) ∧
    (x.wake = true → Computes s c k (soleS .wait) (.wait c k) { goesOn x with wake := false }) ∧
    (x.wake = false → x.cmode = 0 → Computes s c k (soleS .wait) (.wait c k) { goesOn x with run := .waiting 0 }) ∧
    (x.wake = false → x.cmode = 2 → x.matrix = [] → (s.domain (coreDom c k)).awake = true →
      Computes s c k (soleS .wait) (.wait c k) { goesOn x with run := .waiting 2, v := [], a := [], w := [] }) ∧
    (x.matrix = [] →
      Computes s c k (soleS .halt) (.halt c k) { goesOn x with run := .halted, stop := stopValue causeHalt x.pc 0 0 }) ∧
    (∀ code b, x.run = .running → x.pc < imemBundles → x.regBad = false → x.pc ∉ x.imemBad → decodeBundle (SMap.get 0 x.imem x.pc) = .ok b →
      illegalBundle b = false → b.s = .trap code → x.matrix = [] → ∃ t, exec (.trap c k) s = .next t ∧
      t.core c k = { x with run := .halted, stop := stopValue causeTrap x.pc 0 code, issued := true })) ∧
  (∀ A B : BitVec 64,
    AluOp.eval .add A.toNat B.toNat = (A + B).toNat ∧ AluOp.eval .sub A.toNat B.toNat = (A - B).toNat ∧
    AluOp.eval .and A.toNat B.toNat = (A &&& B).toNat ∧ AluOp.eval .or A.toNat B.toNat = (A ||| B).toNat ∧
    AluOp.eval .xor A.toNat B.toNat = (A ^^^ B).toNat ∧
    AluOp.eval .sll A.toNat B.toNat = (A <<< (B.toNat % 64)).toNat ∧
    AluOp.eval .srl A.toNat B.toNat = (A >>> (B.toNat % 64)).toNat ∧
    AluOp.eval .sra A.toNat B.toNat = (A.sshiftRight (B.toNat % 64)).toNat ∧
    AluOp.eval .slt A.toNat B.toNat = (if A.toInt < B.toInt then 1 else 0) ∧
    AluOp.eval .sltu A.toNat B.toNat = (if A.toNat < B.toNat then 1 else 0) ∧
    AluOp.eval .min A.toNat B.toNat = (if A.toInt < B.toInt then A.toNat else B.toNat) ∧
    AluOp.eval .max A.toNat B.toNat = (if A.toInt < B.toInt then B.toNat else A.toNat) ∧
    AluOp.eval .minu A.toNat B.toNat = (if A.toNat < B.toNat then A.toNat else B.toNat) ∧
    AluOp.eval .maxu A.toNat B.toNat = (if A.toNat < B.toNat then B.toNat else A.toNat) ∧
    MulOp.eval .mul A.toNat B.toNat = (A * B).toNat ∧
    MulOp.eval .mulhu A.toNat B.toNat = A.toNat * B.toNat / 2 ^ 64 ∧
    MulOp.eval .mulh A.toNat B.toNat = (BitVec.ofInt 64 (A.toInt * B.toInt / 2 ^ 64)).toNat)

/-- s0 reads as zero whatever was written, a write to it changes nothing, and every other register holds what was last written (R183). -/
def Obligations.ScalarRegisterZero : Prop :=
  (∀ x : Core, x.sreg 0 = 0 ∧ ∀ v, x.setS 0 v = x) ∧
  (∀ (x : Core) i v, SMap.wf 0 x.s = true → i ≠ 0 → (x.setS i v).sreg i = v % 2 ^ 64 ∧
    ∀ j, j ≠ i → (x.setS i v).sreg j = x.sreg j) ∧
  (∀ (x : Core) i v, SMap.wf 0 x.p = true → (x.setP i v).preg i = v % 2 ^ 64 ∧
    ∀ j, j ≠ i → (x.setP i v).preg j = x.preg j) ∧
  (∀ (x : Core) r mask f l, SMap.wf 0 x.v = true → l < 64 →
    (bit mask l = true → (x.setV r mask f).lane r l = f l % 2 ^ 32) ∧
    (bit mask l = false → (x.setV r mask f).lane r l = x.lane r l) ∧
    ∀ q, q ≠ r → (x.setV r mask f).lane q l = x.lane q l) ∧
  (∀ b : Bundle, 0 ∉ scalarWrites b)

/-- A bundle with one V-slot operation writes the lanes of its mask with what R193, R194 and R164 to R166 say (R153, R164, R165, R166, R183, R184, R185, R193, R194). -/
def Obligations.VectorOperationsCompute : Prop :=
  ∀ s (c : Fin 16) (k : Fin 8) p, MapsCanonical s → let x := s.core c k
    let mask := x.mask p
    let gives := fun (op : VOp) (i : Instr) (y : Core) => Computes s c k (soleV op p) i (goesOn y)
    (∀ o d a e, gives (.int o d a e) (.vintAlu c k) (x.setV d mask fun l => o.eval (x.lane a l) (x.lane e l))) ∧
    (∀ o d a e, gives (.imin o d a e) (.vintMinmax c k) (x.setV d mask fun l => o.eval (x.lane a l) (x.lane e l))) ∧
    (∀ o q a e, gives (.icmp o q a e) (.vcmpInt c k)
      (x.setP q (predOf mask (x.preg q) fun l => o.holds (x.lane a l) (x.lane e l)))) ∧
    (∀ d a e q, gives (.sel d a e q) (.vsel c k) (x.setV d mask fun l => if bit (x.preg q) l then x.lane a l else x.lane e l)) ∧
    (∀ o d a e f, gives (.fp o d a e f) (.vfpArith c k)
      (x.setV d mask fun l => o.eval (x.lane a l) (x.lane e l) (x.lane f l))) ∧
    (∀ d a e, gives (.fmin true d a e) (.vminmaxF32 c k) (x.setV d mask fun l => fmaxBits Fmt.f32 (x.lane a l) (x.lane e l)) ∧
      gives (.fmin false d a e) (.vminmaxF32 c k) (x.setV d mask fun l => fminBits Fmt.f32 (x.lane a l) (x.lane e l))) ∧
    (∀ o q a e, gives (.fcmp o q a e) (.vcmpF32 c k)
      (x.setP q (predOf mask (x.preg q) fun l => o.holds (x.lane a l) (x.lane e l)))) ∧
    (∀ d a e, gives (.div d a e) (.vdivVsqrt c k) (x.setV d mask fun l => fdivBits Fmt.f32 (x.lane a l) (x.lane e l))) ∧
    (∀ d a, gives (.sqrt d a) (.vdivVsqrt c k) (x.setV d mask fun l => fsqrtBits Fmt.f32 (x.lane a l))) ∧
    (∀ d a, gives (.exp d a) (.vexp c k) (x.setV d mask fun l => fexp (x.lane a l))) ∧
    (∀ d a e, gives (.expd d a e) (.vexpd c k) (x.setV d mask fun l => expDiff (x.lane a l) (x.lane e l))) ∧
    (∀ d a, gives (.fcvtI d a) (.vcvtInt c k)
      (x.setV d mask fun l => Fmt.f32.round (FV.ofInt (toSigned 32 (x.lane a l))))) ∧
    (∀ op i d (f : Nat → Narrowed), (∃ a, op = .icvtF d a ∧ i = .vcvtInt c k ∧ f = fun l => intLane (x.lane a l)) ∨
      (∃ a z, op = .narrow false z d a ∧ i = .vcvtBf16 c k ∧ f = fun l => narrowLane false z (x.lane a l)) ∨
      (∃ a z, op = .narrow true z d a ∧ i = .vcvtF16 c k ∧ f = fun l => narrowLane true z (x.lane a l)) →
      let t := ((bitsOf 64 mask).map fun l => Narrowed.sticky (f l)).foldl Sticky.or Sticky.none
      gives op i { x.setV d mask fun l => (f l).bits with
        exactRange := x.exactRange || t.range
        sat := x.sat || t.sat
        nan := x.nan || t.nan }) ∧
    (∀ d a, gives (.widen true d a) (.vcvtWiden c k)
        (x.setV d mask fun l => Fmt.f32.round (Fmt.f16.decode (x.lane a l % 2 ^ 16))) ∧
      gives (.widen false d a) (.vcvtWiden c k)
        (x.setV d mask fun l => Fmt.f32.round (Fmt.bf16.decode (x.lane a l % 2 ^ 16)))) ∧
    (∀ o d a, gives (.red o d a) (.vred c k) (x.setV d allLanes fun _ =>
      tree64 o.op ((List.range 64).map fun l => if bit mask l then x.lane a l else o.idle))) ∧
    (∀ d a t, gives (.tmax d a t) (.vtmax c k) (x.setV d mask fun l =>
      (List.range 64).foldl (fun m j => fmaxBits Fmt.f32 m ((x.acc t).el l j)) (x.lane a l))) ∧
    (∀ a t, gives (.texp a t) (.vtexp c k) (x.setAcc t (tileOf fun i j => texpElem ((x.acc t).el i j) (x.lane a i)))) ∧
    (∀ d t, gives (.tsum d t) (.vtsum c k) (x.setV d mask fun l =>
      tree64 (fadd Fmt.f32) ((List.range 64).map ((x.acc t).el l)))) ∧
    (∀ d t a, gives (.tget d t a) (.vtget c k) (x.setV d mask fun l => (x.acc t).el l (x.sreg a))) ∧
    (∀ r t a, gives (.tput r t a) (.vtput c k) (x.setAcc t (tileOf fun i j =>
      if j = x.sreg a && bit mask i then x.lane r i else (x.acc t).el i j))) ∧
    (∀ d a i, gives (.ld false d a i) (.vld c k)
      (x.setV d mask fun l => leAt (coreBytes s c k false (vaddr x a i 64) 256) (4 * l) 4)) ∧
    (∀ d a i, gives (.ldbc false d a i) (.vldBc c k)
      (x.setV d mask fun _ => leVal (coreBytes s c k false (vaddr x a i 4) 4))) ∧
    (∀ d a i, Issues s c k (soleV (.ld true d a i) p) → ∃ t, exec (.vld c k) s = .next t ∧
      (t.core c k).v = (x.setV d mask fun l => leAt (coreBytes s c k true (vaddr x a i 64) 256) (4 * l) 4).v) ∧
    (∀ d a i, Issues s c k (soleV (.ldbc true d a i) p) → ∃ t, exec (.vldBc c k) s = .next t ∧
      (t.core c k).v = (x.setV d mask fun _ => leVal (coreBytes s c k true (vaddr x a i 4) 4)).v) ∧
    (∀ r a i, Issues s c k (soleV (.st false r a i) p) → ∃ t, exec (.vst c k) s = .next t ∧
      (t.core c k).pc = x.pc + 1 ∧
      ∀ b, b < vaddr x a i 64 ∨ vaddr x a i 64 + 256 ≤ b → (t.core c k).spm.read b = x.spm.read b) ∧
    (∀ r a i, Issues s c k (soleV (.st true r a i) p) → ∃ t, exec (.vst c k) s = .next t ∧ (t.core c k).pc = x.pc + 1 ∧
      ∀ b, b < vaddr x a i 64 ∨ vaddr x a i 64 + 256 ≤ b → (t.cluster c).pool.read b = (s.cluster c).pool.read b) ∧
    (∀ d a, gives (.mov d a) (.vmovS c k) (x.setV d mask fun _ => x.s32 a)) ∧
    (∀ d r l, gives (.ext d r l) (.vext c k) (x.setS d (x.lane r l)))

/-- Matrix operations join the unit and write as they finish; TE, release, barrier, wait and wake operations do as R198 to R204 say (R127, R128, R132, R145, R168, R172, R196, R198, R199, R202, R203, R204). -/
def Obligations.MatrixAndSyncOperations : Prop :=
  (∀ s (c : Fin 16) (k : Fin 8), MapsCanonical s → let x := s.core c k
    (∀ op i, (∃ f t a e m z y, op = .mma f t a e m z y ∧ i = .mma c k) ∨ (∃ t v, op = .mscale t v ∧ i = .mscale c k) ∨
      (∃ t a f z n, op = .mst t a f z n ∧ i = .mst c k) ∨ (∃ t a n, op = .wst t a n ∧ i = .wst c k) ∨
      (∃ t a, op = .wld t a ∧ i = .wld c k) ∨ (∃ t w n, op = .wcvt t w n ∧ i = .wcvt c k) →
      Computes s c k (soleM op) i { goesOn x with matrix := x.matrix ++ [matrixOp c k s op] }) ∧
    (∀ m rest, x.matrix = m :: rest →
      let y := m.finish { x with matrix := rest }
      let z : Core := { y with
        exactRange := y.exactRange || m.range
        sat := y.sat || m.sat
        nan := y.nan || m.nan }
      (x.run = .running ∨ x.run = .held ∨ x.run = .halted ∨ x.run = .waking) →
      ∃ t, exec (.matrixOperationComplete c k) s = .next t ∧ t.core c k = z) ∧
    (∀ m v way, x.matrix = [m] → x.run = .stopping v way → ∃ t, exec (.matrixOperationComplete c k) s = .next t ∧
      (t.core c k).run = .halted ∧ (t.core c k).stop = v ∧ (t.core c k).matrix = []) ∧
    (∀ op i u q a w y, (op = .issue q a w ∧ i = .teIssue c k ∧ u = c.val ∧ y = false) ∨
      (op = .xissue q a u w ∧ i = .teXissue c k ∧ y = true) → Issues s c k (soleX op) →
      ∃ t cmd, exec i s = .next t ∧ t.core c k = mended (soleX op) x (goesOn x) ∧ (t.te u q).queue = (s.te u q).queue ++ [cmd] ∧
        cmd.entry = coreBytes s c k false (x.sreg a) 64 ∧ cmd.phase = .queued ∧ cmd.origin = .core c k q y w x.gen) ∧
    (∀ q a n w, Issues s c k (soleX (.arm q a n w)) → ∃ t cmd, exec (.teArm c k) s = .next t ∧
      t.core c k = mended (soleX (.arm q a n w)) x (goesOn x) ∧
      (t.te c q).queue = (s.te c q).queue ++ [cmd] ∧ cmd.entry = coreBytes s c k false (x.sreg a) 64 ∧
      cmd.phase = .armed n) ∧
    (∀ a i, Computes s c k (soleX (.cnt a i)) (.teCnt c k) (goesOn (x.setS a (SMap.get 0 x.cc i)))) ∧
    (∀ a i, Computes s c k (soleX (.err a i)) (.teErr c k)
      { goesOn (x.setS a (SMap.get 0 x.teErr i)) with teErr := SMap.set 0 x.teErr i 0 }) ∧
    (∀ a i, Computes s c k (soleX (.wait a i)) (.teWait c k) (goesOn x)) ∧
    (∀ n, Computes s c k (soleX (.rel n)) (.rel c k) { goesOn x with released := 1 + n }) ∧
    (∀ n, Computes s c k (soleX (.acq n)) (.acq c k) { goesOn x with loaded := [] }) ∧
    (∀ r a, Issues s c k (soleX (.barCfg r a)) → ∃ t, exec (.barCfg c k) s = .next t ∧
      t.core c k = mended (soleX (.barCfg r a)) x (goesOn x) ∧
      (t.cluster c).barrier r = { (s.cluster c).barrier r with mask := x.sreg a % 256 }) ∧
    (∀ r, Issues s c k (soleX (.barArrive r)) →
      let y := (s.cluster c).barrier r
      let all := y.arrived + 2 ^ k.val = y.mask
      ∃ t, exec (.barArrive c k) s = .next t ∧ (t.core c k).pc = x.pc + 1 ∧ (t.core c k).arrivalAt r = 1 + y.gen ∧
        (¬ all → (t.cluster c).barrier r = { y with arrived := y.arrived + 2 ^ k.val }) ∧
        (all → (t.cluster c).barrier r = { y with arrived := 0, gen := y.gen + 1 })) ∧
    (∀ r, Computes s c k (soleX (.barWait r)) (.barWait c k)
      { goesOn x with arrival := SMap.set 0 x.arrival r 0, loaded := [] }) ∧
    (∀ r, Issues s c k (soleX (.barSync r)) → ∃ t, exec (.barSync c k) s = .next t ∧ (t.core c k).pc = x.pc + 1 ∧
      (t.core c k).barIn = false ∧ (t.core c k).loaded = []) ∧
    (∀ a e l p n y, Computes s c k (soleX (.fwait a e l p n y)) (.fwait c k) { goesOn (x.setP p allLanes) with
      loaded := if y then metScopes s c x (x.sreg a) 8 else x.loaded }) ∧
    (∀ m, m ≠ k.val → Issues s c k (soleX (.wake m)) → ∃ t, exec (.wakeCore c k) s = .next t ∧
      t.core c k = mended (soleX (.wake m)) x (goesOn x) ∧
      ((s.core c m).run = .running → t.core c m = { s.core c m with wake := true }) ∧
      (∀ j, (s.core c m).run = .waiting j → (s.domain (coreDom c m)).awake = true →
        t.core c m = { s.core c m with run := .running, wake := false })) ∧
    (∀ a, Computes s c k (soleX (.watch a)) (.watch c k)
      { goesOn x with watch := if bit (x.sreg a) 12 then some (x.sreg a % 4096) else none })) ∧
  (∀ (m : MxOp) (x : Core) t v, SMap.wf [] x.a = true → m.acc = some (t, v) → (m.finish x).acc t = v ∧
    ∀ u, u ≠ t → (m.finish x).acc u = x.acc u) ∧
  (∀ (m : MxOp) (x : Core), m.acc = none → (m.finish x).a = x.a) ∧
  (∀ (m : MxOp) (x : Core), m.spm = none → (m.finish x).spm = x.spm)

/-- A command of a core changes no memory but its cluster's, no other cluster's cores, and nothing of the switch, links or seal (R133, R143, R178, R186, R198). -/
def Obligations.CoreCommandsLeaveTheRestAlone : Prop :=
  ∀ s t (c : Fin 16) (k : Fin 8) i,
    i ∈ ([.intAlu c k, .mul c k, .sel c k, .aluImmediate c k, .mov16 c k, .ldSpm c k, .ldPool c k, .stSpm c k, .stPool c k,
      .fpArith c k, .pset c k, .branch c k, .bpany c k, .j c k, .jal c k, .jr c k, .trap c k, .csRd c k, .csWr c k, .wait c k,
      .halt c k, .stalledBundleIssue c k, .vintAlu c k, .vfpArith c k, .vred c k, .vld c k, .vst c k, .vext c k, .mma c k,
      .mst c k, .wst c k, .wcvt c k, .matrixOperationComplete c k, .teIssue c k, .teArm c k, .teXissue c k, .rel c k,
      .acq c k, .barArrive c k, .barSync c k, .fwait c k, .fwaitConditionMet c k, .fwaitLimitExpiry c k, .wakeCore c k,
      .watch c k] : List Instr) →
    exec i s = .next t →
    t.sw = s.sw ∧ t.ports = s.ports ∧ t.epbs = s.epbs ∧ t.dev = s.dev ∧ t.ue = s.ue ∧ t.hbms = s.hbms ∧ t.sill = s.sill ∧
    t.xps = s.xps ∧ t.sealCore = s.sealCore ∧ t.mgmt = s.mgmt ∧ t.sb = s.sb ∧ t.boot = s.boot ∧ t.now = s.now ∧
    t.pending = s.pending ∧
    ∀ c', c' ≠ c.val → (t.cluster c').cores = (s.cluster c').cores ∧ (t.cluster c').pool = (s.cluster c').pool ∧
      (t.cluster c').barriers = (s.cluster c').barriers ∧ (t.cluster c').scopes = (s.cluster c').scopes

/-- Every lane's four lands, the control lands and the supply lands lie where the land grid puts them (R489, R490, R491, R492, R493). -/
def Obligations.LandsOfPortsAndSupplies : Prop :=
  (∀ n, n < 88 → ∀ k, k < 4 → ∀ a pin, lanePin a = some pin →
    let u := 32 + 6 * (n % 22 % 11) + a
    let d := 1 + 8 * (n % 22 / 11) + 2 * k + 1
    let at_ := match n / 22 with
      | 0 => (u, d)
      | 1 => (129 - d, u)
      | 2 => (129 - u, 129 - d)
      | _ => (d, 129 - u)
    land at_.1 at_.2 = .fabric (4 * n + k) pin) ∧
  (∀ b, b ∈ blocks → ∀ k, k < 16 → ∀ a pin, lanePin a = some pin →
    land (b.2.1 + 6 * (k / 8) + a) (b.2.2 + 2 * (k % 8) + 1) = .port b.1 k pin) ∧
  (∀ e, e ∈ singleLands → land e.1.1 e.1.2 = .control e.2) ∧
  (∀ e, e ∈ pairLands → land e.1.1 e.1.2 = .control (e.2 false) ∧ land (e.1.1 + 1) e.1.2 = .control (e.2 true)) ∧
  (railLands .vddaLane = 736 ∧ railLands .vddhLane = 174 ∧ railLands .vddSw = 810 ∧ railLands .vddqHbm = 438 ∧
    railLands .vddHbm = 272 ∧ railLands .vppHbm = 65 ∧ railLands .vddIo = 33 ∧ railLands .vddAon = 32 ∧
    railLands .vddCmp = 2048)

/-- A packet laid out as bytes and read again is the packet, for every value of every header field (R11, R74, R75, R76). -/
def Obligations.PacketBytesReadBack : Prop :=
  (∀ h : Header, h.bytes.length = 32 ∧ Header.ofBytes h.bytes = h) ∧
  (∀ p : Packet, p.payload.length = p.hdr.payLen → (p.hdr.len = 0 → p.trailer = 0) →
    p.bytes.length = p.size ∧ Packet.ofBytes p.bytes = p) ∧
  (∀ h : Header, h.seal_.hcrcOk = true) ∧
  (∀ (h : Header) (bs : List Byte), (Packet.make h bs).hdr.hcrcOk = true ∧ (Packet.make h bs).trailerOk = true)
end

