-- ==== Sys2Proof/Laws/Maps.lean ====
section
/-! SUPPORT. Laws of the sparse maps and of the memories kept in them: reading after writing, and the canonical form. -/
namespace Sys2Proof

/-! ### Reading after writing -/

theorem SMap.get_nil {α : Type} (d : α) (i : Nat) : SMap.get d [] i = d := rfl

theorem SMap.get_cons {α : Type} (d : α) (k : Nat) (v : α) (m : SMap α) (i : Nat) :
    SMap.get d ((k, v) :: m) i = if k = i then v else SMap.get d m i := rfl

/-- Writing one key leaves every other key as it reads. -/
theorem SMap.get_set_other {α : Type} [DecidableEq α] (d : α) (m : SMap α) (k i : Nat) (v : α) (h : k ≠ i) :
    SMap.get d (SMap.set d m k v) i = SMap.get d m i := by
  induction m with
  | nil =>
    unfold SMap.set
    split <;> simp [SMap.get, h]
  | cons e m ih =>
    obtain ⟨k', v'⟩ := e
    unfold SMap.set
    split
    · split <;> simp [SMap.get, h]
    · split
      · subst_vars
        split <;> simp [SMap.get, h]
      · simp [SMap.get, ih]

/-- Every key of the list lies above `b`. -/
def SMap.above {α : Type} (b : Nat) (m : SMap α) : Prop := ∀ e ∈ m, b < e.1

theorem SMap.get_above {α : Type} (d : α) (m : SMap α) (b i : Nat) (h : SMap.above b m) (hi : i ≤ b) :
    SMap.get d m i = d := by
  induction m with
  | nil => rfl
  | cons e m ih =>
    have he := h e (List.mem_cons_self ..)
    have : e.1 ≠ i := by omega
    obtain ⟨k, v⟩ := e
    simp only [SMap.get_cons, if_neg this]
    exact ih fun x hx => h x (List.mem_cons_of_mem _ hx)

theorem SMap.wfFrom_above {α : Type} [DecidableEq α] (d : α) (m : SMap α) (b : Nat)
    (h : SMap.wfFrom d (some b) m = true) : SMap.above b m := by
  induction m generalizing b with
  | nil => intro e he; cases he
  | cons e m ih =>
    obtain ⟨k, v⟩ := e
    simp only [SMap.wfFrom, Bool.and_eq_true, decide_eq_true_eq] at h
    intro x hx
    rcases List.mem_cons.1 hx with rfl | hx
    · exact h.1.1
    · exact Nat.lt_trans h.1.1 (ih k h.2 x hx)

theorem SMap.wfFrom_mono {α : Type} [DecidableEq α] (d : α) (m : SMap α) (a b : Nat) (hab : a ≤ b)
    (h : SMap.wfFrom d (some b) m = true) : SMap.wfFrom d (some a) m = true := by
  cases m with
  | nil => rfl
  | cons e m =>
    obtain ⟨k, v⟩ := e
    simp only [SMap.wfFrom, Bool.and_eq_true, decide_eq_true_eq] at h ⊢
    exact ⟨⟨by omega, h.1.2⟩, h.2⟩

/-- A key reads what was written to it, in a map of canonical form. -/
theorem SMap.get_set_same {α : Type} [DecidableEq α] (d : α) (m : SMap α) (k : Nat) (v : α) (lo : Option Nat)
    (h : SMap.wfFrom d lo m = true) : SMap.get d (SMap.set d m k v) k = v := by
  induction m generalizing lo with
  | nil =>
    unfold SMap.set
    split <;> simp_all [SMap.get]
  | cons e m ih =>
    obtain ⟨k', v'⟩ := e
    have hm : SMap.wfFrom d (some k') m = true := by
      simp only [SMap.wfFrom, Bool.and_eq_true] at h
      exact h.2
    have hab := SMap.wfFrom_above d m k' hm
    unfold SMap.set
    split
    · rename_i hlt
      have hne : k' ≠ k := by omega
      split
      · subst_vars
        simp only [SMap.get_cons, if_neg hne]
        exact SMap.get_above _ m k' k hab (by omega)
      · simp [SMap.get_cons]
    · split
      · subst_vars
        split
        · subst_vars
          exact SMap.get_above _ m _ _ hab (Nat.le_refl _)
        · simp [SMap.get_cons]
      · rename_i hne
        have hne' : k' ≠ k := fun h => hne h.symm
        simp only [SMap.get_cons, if_neg hne']
        exact ih (some k') hm

/-- A value other than the default is read back from any list. -/
theorem SMap.get_set_value {α : Type} [DecidableEq α] (d : α) (m : SMap α) (k : Nat) (v : α) (hv : v ≠ d) :
    SMap.get d (SMap.set d m k v) k = v := by
  induction m with
  | nil => simp [SMap.set, SMap.get, hv]
  | cons e m ih =>
    obtain ⟨k', v'⟩ := e
    unfold SMap.set
    simp only [if_neg hv]
    split
    · simp [SMap.get]
    · split
      · simp [SMap.get]
      · rename_i hne
        have hne' : k' ≠ k := fun h => hne h.symm
        simp [SMap.get, hne', ih]

/-! ### The canonical form -/

theorem SMap.set_wfFrom {α : Type} [DecidableEq α] (d : α) (m : SMap α) (k : Nat) (v : α) (lo : Option Nat)
    (hlo : ∀ l, lo = some l → l < k) (h : SMap.wfFrom d lo m = true) :
    SMap.wfFrom d lo (SMap.set d m k v) = true := by
  induction m generalizing lo with
  | nil =>
    unfold SMap.set
    split
    · rfl
    · rename_i hv
      cases lo with
      | none => simp [SMap.wfFrom, hv]
      | some l => simp [SMap.wfFrom, hv, hlo l rfl]
  | cons e m ih =>
    obtain ⟨k', v'⟩ := e
    have h0 := h
    simp only [SMap.wfFrom, Bool.and_eq_true, decide_eq_true_eq] at h
    unfold SMap.set
    split
    · rename_i hlt
      split
      · exact h0
      · rename_i hv
        cases lo with
        | none => simp [SMap.wfFrom, hv, hlt, h.1.2, h.2]
        | some l => simp [SMap.wfFrom, hv, hlt, h.1.2, h.2, hlo l rfl]
    · split
      · subst_vars
        split
        · cases lo with
          | none => cases m with
            | nil => rfl
            | cons e m =>
              have := h.2
              simp only [SMap.wfFrom, Bool.and_eq_true, decide_eq_true_eq] at this ⊢
              exact ⟨⟨trivial, this.1.2⟩, this.2⟩
          | some l => exact SMap.wfFrom_mono d m l _ (Nat.le_of_lt (hlo l rfl)) h.2
        · rename_i hv
          cases lo with
          | none => simp [SMap.wfFrom, hv, h.2]
          | some l => simp [SMap.wfFrom, hv, h.2, hlo l rfl]
      · rename_i hnl hne
        have hk : k' < k := by omega
        have := ih (some k') (fun l hl => by cases hl; exact hk) h.2
        simp only [SMap.wfFrom, Bool.and_eq_true, decide_eq_true_eq]
        exact ⟨h.1, this⟩

/-- A write keeps the canonical form. -/
theorem SMap.set_wf {α : Type} [DecidableEq α] (d : α) (m : SMap α) (k : Nat) (v : α) (h : SMap.wf d m = true) :
    SMap.wf d (SMap.set d m k v) = true :=
  SMap.set_wfFrom d m k v none (fun _ hl => by cases hl) h

theorem SMap.upd_wf {α : Type} [DecidableEq α] (d : α) (m : SMap α) (k : Nat) (f : α → α) (h : SMap.wf d m = true) :
    SMap.wf d (SMap.upd d m k f) = true := SMap.set_wf d m k _ h

theorem SMap.filter_wfFrom {α : Type} [DecidableEq α] (d : α) (p : Nat × α → Bool) (m : SMap α) (lo : Option Nat)
    (h : SMap.wfFrom d lo m = true) : SMap.wfFrom d lo (m.filter p) = true := by
  induction m generalizing lo with
  | nil => rfl
  | cons e m ih =>
    obtain ⟨k, v⟩ := e
    simp only [SMap.wfFrom, Bool.and_eq_true, decide_eq_true_eq] at h
    have hm := ih (some k) h.2
    by_cases hp : p (k, v) = true
    · rw [List.filter_cons_of_pos hp]
      simp only [SMap.wfFrom, Bool.and_eq_true, decide_eq_true_eq]
      exact ⟨h.1, hm⟩
    · rw [List.filter_cons_of_neg hp]
      cases lo with
      | some l =>
        have hl : l < k := by simpa using h.1.1
        exact SMap.wfFrom_mono d _ l k (Nat.le_of_lt hl) hm
      | none =>
        cases hq : m.filter p with
        | nil => rfl
        | cons e' m' =>
          rw [hq] at hm
          simp only [SMap.wfFrom, Bool.and_eq_true, decide_eq_true_eq] at hm ⊢
          exact ⟨⟨trivial, hm.1.2⟩, hm.2⟩

namespace Machine

/-! ### Memories -/

/-- A byte written is read back; every other byte reads as before. -/
theorem Memory.read_write (m : Memory) (a i : Nat) (b : Byte) (h : m.wf = true) :
    (m.write a b).read i = if a = i then b else m.read i := by
  split
  · subst_vars
    exact SMap.get_set_same _ m _ b none h
  · rename_i hne
    exact SMap.get_set_other _ m a i b hne

theorem Memory.read_write_other (m : Memory) (a i : Nat) (b : Byte) (h : a ≠ i) : (m.write a b).read i = m.read i :=
  SMap.get_set_other _ m a i b h

theorem Memory.write_wf (m : Memory) (a : Nat) (b : Byte) (h : m.wf = true) : (m.write a b).wf = true :=
  SMap.set_wf _ m a b h

theorem Memory.writeN_wf (m : Memory) (a : Nat) (bs : List Byte) (h : m.wf = true) : (m.writeN a bs).wf = true := by
  induction bs generalizing m a with
  | nil => exact h
  | cons b bs ih => exact ih _ _ (Memory.write_wf m a b h)

theorem Memory.leWrite_wf (m : Memory) (a n v : Nat) (h : m.wf = true) : (m.leWrite a n v).wf = true :=
  Memory.writeN_wf m a _ h

theorem Memory.clear_wf (m : Memory) (a n : Nat) (h : m.wf = true) : (m.clear a n).wf = true :=
  SMap.filter_wfFrom _ _ m none h

theorem Memory.readN_length (m : Memory) (a n : Nat) : (m.readN a n).length = n := by
  induction n generalizing a with
  | zero => rfl
  | succ n ih => simp [Memory.readN, ih]

/-- Bytes outside a written range read as before. -/
theorem Memory.read_writeN_other (m : Memory) (a i : Nat) (bs : List Byte) (h : i < a ∨ a + bs.length ≤ i) :
    (m.writeN a bs).read i = m.read i := by
  induction bs generalizing m a with
  | nil => rfl
  | cons b bs ih =>
    simp only [List.length_cons] at h
    simp only [Memory.writeN]
    rw [ih _ _ (by omega), Memory.read_write_other]
    omega

/-- A written byte string is read back. -/
theorem Memory.read_writeN (m : Memory) (a i : Nat) (bs : List Byte) (h : m.wf = true) (hi : i < bs.length) :
    (m.writeN a bs).read (a + i) = bs[i] := by
  induction bs generalizing m a i with
  | nil => cases hi
  | cons b bs ih =>
    simp only [Memory.writeN]
    cases i with
    | zero =>
      rw [Memory.read_writeN_other _ _ _ _ (by omega), Memory.read_write m a _ b h]
      simp
    | succ i =>
      have := ih (m.write a b) (a + 1) i (Memory.write_wf m a b h) (by simpa using hi)
      rw [show a + (i + 1) = a + 1 + i by omega, this]
      simp

end Machine

end Sys2Proof
end

