-- ==== Sys2Proof/Laws/State.lean ====
section
/-! SUPPORT. What each update of the state leaves and writes: one lemma per field per update, and one per unit. -/
namespace Sys2Proof.Machine

/-! ### `modPort` -/

@[simp] theorem State.modPort_pending (n : Nat) (f : Port → Port) (s : State) : (s.modPort n f).pending = s.pending := rfl
@[simp] theorem State.modPort_now (n : Nat) (f : Port → Port) (s : State) : (s.modPort n f).now = s.now := rfl
@[simp] theorem State.modPort_free (n : Nat) (f : Port → Port) (s : State) : (s.modPort n f).free = s.free := rfl
@[simp] theorem State.modPort_out (n : Nat) (f : Port → Port) (s : State) : (s.modPort n f).out = s.out := rfl
@[simp] theorem State.modPort_boot (n : Nat) (f : Port → Port) (s : State) : (s.modPort n f).boot = s.boot := rfl
@[simp] theorem State.modPort_glob (n : Nat) (f : Port → Port) (s : State) : (s.modPort n f).glob = s.glob := rfl
@[simp] theorem State.modPort_hosts (n : Nat) (f : Port → Port) (s : State) : (s.modPort n f).hosts = s.hosts := rfl
@[simp] theorem State.modPort_sw (n : Nat) (f : Port → Port) (s : State) : (s.modPort n f).sw = s.sw := rfl
@[simp] theorem State.modPort_ports (n : Nat) (f : Port → Port) (s : State) : (s.modPort n f).ports = SMap.upd Port.reset s.ports n f := rfl
@[simp] theorem State.modPort_epbs (n : Nat) (f : Port → Port) (s : State) : (s.modPort n f).epbs = s.epbs := rfl
@[simp] theorem State.modPort_clusters (n : Nat) (f : Port → Port) (s : State) : (s.modPort n f).clusters = s.clusters := rfl
@[simp] theorem State.modPort_dev (n : Nat) (f : Port → Port) (s : State) : (s.modPort n f).dev = s.dev := rfl
@[simp] theorem State.modPort_ue (n : Nat) (f : Port → Port) (s : State) : (s.modPort n f).ue = s.ue := rfl
@[simp] theorem State.modPort_ce (n : Nat) (f : Port → Port) (s : State) : (s.modPort n f).ce = s.ce := rfl
@[simp] theorem State.modPort_hbms (n : Nat) (f : Port → Port) (s : State) : (s.modPort n f).hbms = s.hbms := rfl
@[simp] theorem State.modPort_xps (n : Nat) (f : Port → Port) (s : State) : (s.modPort n f).xps = s.xps := rfl
@[simp] theorem State.modPort_sill (n : Nat) (f : Port → Port) (s : State) : (s.modPort n f).sill = s.sill := rfl
@[simp] theorem State.modPort_power (n : Nat) (f : Port → Port) (s : State) : (s.modPort n f).power = s.power := rfl
@[simp] theorem State.modPort_sealCore (n : Nat) (f : Port → Port) (s : State) : (s.modPort n f).sealCore = s.sealCore := rfl
@[simp] theorem State.modPort_mgmt (n : Nat) (f : Port → Port) (s : State) : (s.modPort n f).mgmt = s.mgmt := rfl
@[simp] theorem State.modPort_sb (n : Nat) (f : Port → Port) (s : State) : (s.modPort n f).sb = s.sb := rfl
@[simp] theorem State.modPort_cnt (n : Nat) (f : Port → Port) (s : State) : (s.modPort n f).cnt = s.cnt := rfl
@[simp] theorem State.modPort_unit_epb (n : Nat) (f : Port → Port) (i : Nat) (s : State) : (s.modPort n f).epb i = s.epb i := rfl
@[simp] theorem State.modPort_unit_cluster (n : Nat) (f : Port → Port) (i : Nat) (s : State) : (s.modPort n f).cluster i = s.cluster i := rfl
@[simp] theorem State.modPort_unit_host (n : Nat) (f : Port → Port) (i : Nat) (s : State) : (s.modPort n f).host i = s.host i := rfl
@[simp] theorem State.modPort_unit_hbm (n : Nat) (f : Port → Port) (i : Nat) (s : State) : (s.modPort n f).hbm i = s.hbm i := rfl
@[simp] theorem State.modPort_unit_xp (n : Nat) (f : Port → Port) (i : Nat) (s : State) : (s.modPort n f).xp i = s.xp i := rfl
@[simp] theorem State.modPort_unit_core (n : Nat) (f : Port → Port) (i j : Nat) (s : State) : (s.modPort n f).core i j = s.core i j := rfl
@[simp] theorem State.modPort_unit_te (n : Nat) (f : Port → Port) (i j : Nat) (s : State) : (s.modPort n f).te i j = s.te i j := rfl

/-! ### `modEpb` -/

@[simp] theorem State.modEpb_pending (e : Nat) (f : Epb → Epb) (s : State) : (s.modEpb e f).pending = s.pending := rfl
@[simp] theorem State.modEpb_now (e : Nat) (f : Epb → Epb) (s : State) : (s.modEpb e f).now = s.now := rfl
@[simp] theorem State.modEpb_free (e : Nat) (f : Epb → Epb) (s : State) : (s.modEpb e f).free = s.free := rfl
@[simp] theorem State.modEpb_out (e : Nat) (f : Epb → Epb) (s : State) : (s.modEpb e f).out = s.out := rfl
@[simp] theorem State.modEpb_boot (e : Nat) (f : Epb → Epb) (s : State) : (s.modEpb e f).boot = s.boot := rfl
@[simp] theorem State.modEpb_glob (e : Nat) (f : Epb → Epb) (s : State) : (s.modEpb e f).glob = s.glob := rfl
@[simp] theorem State.modEpb_hosts (e : Nat) (f : Epb → Epb) (s : State) : (s.modEpb e f).hosts = s.hosts := rfl
@[simp] theorem State.modEpb_sw (e : Nat) (f : Epb → Epb) (s : State) : (s.modEpb e f).sw = s.sw := rfl
@[simp] theorem State.modEpb_ports (e : Nat) (f : Epb → Epb) (s : State) : (s.modEpb e f).ports = s.ports := rfl
@[simp] theorem State.modEpb_epbs (e : Nat) (f : Epb → Epb) (s : State) : (s.modEpb e f).epbs = SMap.upd Epb.reset s.epbs e f := rfl
@[simp] theorem State.modEpb_clusters (e : Nat) (f : Epb → Epb) (s : State) : (s.modEpb e f).clusters = s.clusters := rfl
@[simp] theorem State.modEpb_dev (e : Nat) (f : Epb → Epb) (s : State) : (s.modEpb e f).dev = s.dev := rfl
@[simp] theorem State.modEpb_ue (e : Nat) (f : Epb → Epb) (s : State) : (s.modEpb e f).ue = s.ue := rfl
@[simp] theorem State.modEpb_ce (e : Nat) (f : Epb → Epb) (s : State) : (s.modEpb e f).ce = s.ce := rfl
@[simp] theorem State.modEpb_hbms (e : Nat) (f : Epb → Epb) (s : State) : (s.modEpb e f).hbms = s.hbms := rfl
@[simp] theorem State.modEpb_xps (e : Nat) (f : Epb → Epb) (s : State) : (s.modEpb e f).xps = s.xps := rfl
@[simp] theorem State.modEpb_sill (e : Nat) (f : Epb → Epb) (s : State) : (s.modEpb e f).sill = s.sill := rfl
@[simp] theorem State.modEpb_power (e : Nat) (f : Epb → Epb) (s : State) : (s.modEpb e f).power = s.power := rfl
@[simp] theorem State.modEpb_sealCore (e : Nat) (f : Epb → Epb) (s : State) : (s.modEpb e f).sealCore = s.sealCore := rfl
@[simp] theorem State.modEpb_mgmt (e : Nat) (f : Epb → Epb) (s : State) : (s.modEpb e f).mgmt = s.mgmt := rfl
@[simp] theorem State.modEpb_sb (e : Nat) (f : Epb → Epb) (s : State) : (s.modEpb e f).sb = s.sb := rfl
@[simp] theorem State.modEpb_cnt (e : Nat) (f : Epb → Epb) (s : State) : (s.modEpb e f).cnt = s.cnt := rfl
@[simp] theorem State.modEpb_unit_port (e : Nat) (f : Epb → Epb) (i : Nat) (s : State) : (s.modEpb e f).port i = s.port i := rfl
@[simp] theorem State.modEpb_unit_cluster (e : Nat) (f : Epb → Epb) (i : Nat) (s : State) : (s.modEpb e f).cluster i = s.cluster i := rfl
@[simp] theorem State.modEpb_unit_host (e : Nat) (f : Epb → Epb) (i : Nat) (s : State) : (s.modEpb e f).host i = s.host i := rfl
@[simp] theorem State.modEpb_unit_hbm (e : Nat) (f : Epb → Epb) (i : Nat) (s : State) : (s.modEpb e f).hbm i = s.hbm i := rfl
@[simp] theorem State.modEpb_unit_xp (e : Nat) (f : Epb → Epb) (i : Nat) (s : State) : (s.modEpb e f).xp i = s.xp i := rfl
@[simp] theorem State.modEpb_unit_core (e : Nat) (f : Epb → Epb) (i j : Nat) (s : State) : (s.modEpb e f).core i j = s.core i j := rfl
@[simp] theorem State.modEpb_unit_te (e : Nat) (f : Epb → Epb) (i j : Nat) (s : State) : (s.modEpb e f).te i j = s.te i j := rfl

/-! ### `modCluster` -/

@[simp] theorem State.modCluster_pending (c : Nat) (f : Cluster → Cluster) (s : State) : (s.modCluster c f).pending = s.pending := rfl
@[simp] theorem State.modCluster_now (c : Nat) (f : Cluster → Cluster) (s : State) : (s.modCluster c f).now = s.now := rfl
@[simp] theorem State.modCluster_free (c : Nat) (f : Cluster → Cluster) (s : State) : (s.modCluster c f).free = s.free := rfl
@[simp] theorem State.modCluster_out (c : Nat) (f : Cluster → Cluster) (s : State) : (s.modCluster c f).out = s.out := rfl
@[simp] theorem State.modCluster_boot (c : Nat) (f : Cluster → Cluster) (s : State) : (s.modCluster c f).boot = s.boot := rfl
@[simp] theorem State.modCluster_glob (c : Nat) (f : Cluster → Cluster) (s : State) : (s.modCluster c f).glob = s.glob := rfl
@[simp] theorem State.modCluster_hosts (c : Nat) (f : Cluster → Cluster) (s : State) : (s.modCluster c f).hosts = s.hosts := rfl
@[simp] theorem State.modCluster_sw (c : Nat) (f : Cluster → Cluster) (s : State) : (s.modCluster c f).sw = s.sw := rfl
@[simp] theorem State.modCluster_ports (c : Nat) (f : Cluster → Cluster) (s : State) : (s.modCluster c f).ports = s.ports := rfl
@[simp] theorem State.modCluster_epbs (c : Nat) (f : Cluster → Cluster) (s : State) : (s.modCluster c f).epbs = s.epbs := rfl
@[simp] theorem State.modCluster_clusters (c : Nat) (f : Cluster → Cluster) (s : State) : (s.modCluster c f).clusters = SMap.upd Cluster.reset s.clusters c f := rfl
@[simp] theorem State.modCluster_dev (c : Nat) (f : Cluster → Cluster) (s : State) : (s.modCluster c f).dev = s.dev := rfl
@[simp] theorem State.modCluster_ue (c : Nat) (f : Cluster → Cluster) (s : State) : (s.modCluster c f).ue = s.ue := rfl
@[simp] theorem State.modCluster_ce (c : Nat) (f : Cluster → Cluster) (s : State) : (s.modCluster c f).ce = s.ce := rfl
@[simp] theorem State.modCluster_hbms (c : Nat) (f : Cluster → Cluster) (s : State) : (s.modCluster c f).hbms = s.hbms := rfl
@[simp] theorem State.modCluster_xps (c : Nat) (f : Cluster → Cluster) (s : State) : (s.modCluster c f).xps = s.xps := rfl
@[simp] theorem State.modCluster_sill (c : Nat) (f : Cluster → Cluster) (s : State) : (s.modCluster c f).sill = s.sill := rfl
@[simp] theorem State.modCluster_power (c : Nat) (f : Cluster → Cluster) (s : State) : (s.modCluster c f).power = s.power := rfl
@[simp] theorem State.modCluster_sealCore (c : Nat) (f : Cluster → Cluster) (s : State) : (s.modCluster c f).sealCore = s.sealCore := rfl
@[simp] theorem State.modCluster_mgmt (c : Nat) (f : Cluster → Cluster) (s : State) : (s.modCluster c f).mgmt = s.mgmt := rfl
@[simp] theorem State.modCluster_sb (c : Nat) (f : Cluster → Cluster) (s : State) : (s.modCluster c f).sb = s.sb := rfl
@[simp] theorem State.modCluster_cnt (c : Nat) (f : Cluster → Cluster) (s : State) : (s.modCluster c f).cnt = s.cnt := rfl
@[simp] theorem State.modCluster_unit_port (c : Nat) (f : Cluster → Cluster) (i : Nat) (s : State) : (s.modCluster c f).port i = s.port i := rfl
@[simp] theorem State.modCluster_unit_epb (c : Nat) (f : Cluster → Cluster) (i : Nat) (s : State) : (s.modCluster c f).epb i = s.epb i := rfl
@[simp] theorem State.modCluster_unit_host (c : Nat) (f : Cluster → Cluster) (i : Nat) (s : State) : (s.modCluster c f).host i = s.host i := rfl
@[simp] theorem State.modCluster_unit_hbm (c : Nat) (f : Cluster → Cluster) (i : Nat) (s : State) : (s.modCluster c f).hbm i = s.hbm i := rfl
@[simp] theorem State.modCluster_unit_xp (c : Nat) (f : Cluster → Cluster) (i : Nat) (s : State) : (s.modCluster c f).xp i = s.xp i := rfl

/-! ### `modHost` -/

@[simp] theorem State.modHost_pending (x : Nat) (f : HostPort → HostPort) (s : State) : (s.modHost x f).pending = s.pending := rfl
@[simp] theorem State.modHost_now (x : Nat) (f : HostPort → HostPort) (s : State) : (s.modHost x f).now = s.now := rfl
@[simp] theorem State.modHost_free (x : Nat) (f : HostPort → HostPort) (s : State) : (s.modHost x f).free = s.free := rfl
@[simp] theorem State.modHost_out (x : Nat) (f : HostPort → HostPort) (s : State) : (s.modHost x f).out = s.out := rfl
@[simp] theorem State.modHost_boot (x : Nat) (f : HostPort → HostPort) (s : State) : (s.modHost x f).boot = s.boot := rfl
@[simp] theorem State.modHost_glob (x : Nat) (f : HostPort → HostPort) (s : State) : (s.modHost x f).glob = s.glob := rfl
@[simp] theorem State.modHost_hosts (x : Nat) (f : HostPort → HostPort) (s : State) : (s.modHost x f).hosts = SMap.upd HostPort.reset s.hosts x f := rfl
@[simp] theorem State.modHost_sw (x : Nat) (f : HostPort → HostPort) (s : State) : (s.modHost x f).sw = s.sw := rfl
@[simp] theorem State.modHost_ports (x : Nat) (f : HostPort → HostPort) (s : State) : (s.modHost x f).ports = s.ports := rfl
@[simp] theorem State.modHost_epbs (x : Nat) (f : HostPort → HostPort) (s : State) : (s.modHost x f).epbs = s.epbs := rfl
@[simp] theorem State.modHost_clusters (x : Nat) (f : HostPort → HostPort) (s : State) : (s.modHost x f).clusters = s.clusters := rfl
@[simp] theorem State.modHost_dev (x : Nat) (f : HostPort → HostPort) (s : State) : (s.modHost x f).dev = s.dev := rfl
@[simp] theorem State.modHost_ue (x : Nat) (f : HostPort → HostPort) (s : State) : (s.modHost x f).ue = s.ue := rfl
@[simp] theorem State.modHost_ce (x : Nat) (f : HostPort → HostPort) (s : State) : (s.modHost x f).ce = s.ce := rfl
@[simp] theorem State.modHost_hbms (x : Nat) (f : HostPort → HostPort) (s : State) : (s.modHost x f).hbms = s.hbms := rfl
@[simp] theorem State.modHost_xps (x : Nat) (f : HostPort → HostPort) (s : State) : (s.modHost x f).xps = s.xps := rfl
@[simp] theorem State.modHost_sill (x : Nat) (f : HostPort → HostPort) (s : State) : (s.modHost x f).sill = s.sill := rfl
@[simp] theorem State.modHost_power (x : Nat) (f : HostPort → HostPort) (s : State) : (s.modHost x f).power = s.power := rfl
@[simp] theorem State.modHost_sealCore (x : Nat) (f : HostPort → HostPort) (s : State) : (s.modHost x f).sealCore = s.sealCore := rfl
@[simp] theorem State.modHost_mgmt (x : Nat) (f : HostPort → HostPort) (s : State) : (s.modHost x f).mgmt = s.mgmt := rfl
@[simp] theorem State.modHost_sb (x : Nat) (f : HostPort → HostPort) (s : State) : (s.modHost x f).sb = s.sb := rfl
@[simp] theorem State.modHost_cnt (x : Nat) (f : HostPort → HostPort) (s : State) : (s.modHost x f).cnt = s.cnt := rfl
@[simp] theorem State.modHost_unit_port (x : Nat) (f : HostPort → HostPort) (i : Nat) (s : State) : (s.modHost x f).port i = s.port i := rfl
@[simp] theorem State.modHost_unit_epb (x : Nat) (f : HostPort → HostPort) (i : Nat) (s : State) : (s.modHost x f).epb i = s.epb i := rfl
@[simp] theorem State.modHost_unit_cluster (x : Nat) (f : HostPort → HostPort) (i : Nat) (s : State) : (s.modHost x f).cluster i = s.cluster i := rfl
@[simp] theorem State.modHost_unit_hbm (x : Nat) (f : HostPort → HostPort) (i : Nat) (s : State) : (s.modHost x f).hbm i = s.hbm i := rfl
@[simp] theorem State.modHost_unit_xp (x : Nat) (f : HostPort → HostPort) (i : Nat) (s : State) : (s.modHost x f).xp i = s.xp i := rfl
@[simp] theorem State.modHost_unit_core (x : Nat) (f : HostPort → HostPort) (i j : Nat) (s : State) : (s.modHost x f).core i j = s.core i j := rfl
@[simp] theorem State.modHost_unit_te (x : Nat) (f : HostPort → HostPort) (i j : Nat) (s : State) : (s.modHost x f).te i j = s.te i j := rfl

/-! ### `modHbm` -/

@[simp] theorem State.modHbm_pending (n : Nat) (f : Hbm → Hbm) (s : State) : (s.modHbm n f).pending = s.pending := rfl
@[simp] theorem State.modHbm_now (n : Nat) (f : Hbm → Hbm) (s : State) : (s.modHbm n f).now = s.now := rfl
@[simp] theorem State.modHbm_free (n : Nat) (f : Hbm → Hbm) (s : State) : (s.modHbm n f).free = s.free := rfl
@[simp] theorem State.modHbm_out (n : Nat) (f : Hbm → Hbm) (s : State) : (s.modHbm n f).out = s.out := rfl
@[simp] theorem State.modHbm_boot (n : Nat) (f : Hbm → Hbm) (s : State) : (s.modHbm n f).boot = s.boot := rfl
@[simp] theorem State.modHbm_glob (n : Nat) (f : Hbm → Hbm) (s : State) : (s.modHbm n f).glob = s.glob := rfl
@[simp] theorem State.modHbm_hosts (n : Nat) (f : Hbm → Hbm) (s : State) : (s.modHbm n f).hosts = s.hosts := rfl
@[simp] theorem State.modHbm_sw (n : Nat) (f : Hbm → Hbm) (s : State) : (s.modHbm n f).sw = s.sw := rfl
@[simp] theorem State.modHbm_ports (n : Nat) (f : Hbm → Hbm) (s : State) : (s.modHbm n f).ports = s.ports := rfl
@[simp] theorem State.modHbm_epbs (n : Nat) (f : Hbm → Hbm) (s : State) : (s.modHbm n f).epbs = s.epbs := rfl
@[simp] theorem State.modHbm_clusters (n : Nat) (f : Hbm → Hbm) (s : State) : (s.modHbm n f).clusters = s.clusters := rfl
@[simp] theorem State.modHbm_dev (n : Nat) (f : Hbm → Hbm) (s : State) : (s.modHbm n f).dev = s.dev := rfl
@[simp] theorem State.modHbm_ue (n : Nat) (f : Hbm → Hbm) (s : State) : (s.modHbm n f).ue = s.ue := rfl
@[simp] theorem State.modHbm_ce (n : Nat) (f : Hbm → Hbm) (s : State) : (s.modHbm n f).ce = s.ce := rfl
@[simp] theorem State.modHbm_hbms (n : Nat) (f : Hbm → Hbm) (s : State) : (s.modHbm n f).hbms = SMap.upd Hbm.reset s.hbms n f := rfl
@[simp] theorem State.modHbm_xps (n : Nat) (f : Hbm → Hbm) (s : State) : (s.modHbm n f).xps = s.xps := rfl
@[simp] theorem State.modHbm_sill (n : Nat) (f : Hbm → Hbm) (s : State) : (s.modHbm n f).sill = s.sill := rfl
@[simp] theorem State.modHbm_power (n : Nat) (f : Hbm → Hbm) (s : State) : (s.modHbm n f).power = s.power := rfl
@[simp] theorem State.modHbm_sealCore (n : Nat) (f : Hbm → Hbm) (s : State) : (s.modHbm n f).sealCore = s.sealCore := rfl
@[simp] theorem State.modHbm_mgmt (n : Nat) (f : Hbm → Hbm) (s : State) : (s.modHbm n f).mgmt = s.mgmt := rfl
@[simp] theorem State.modHbm_sb (n : Nat) (f : Hbm → Hbm) (s : State) : (s.modHbm n f).sb = s.sb := rfl
@[simp] theorem State.modHbm_cnt (n : Nat) (f : Hbm → Hbm) (s : State) : (s.modHbm n f).cnt = s.cnt := rfl
@[simp] theorem State.modHbm_unit_port (n : Nat) (f : Hbm → Hbm) (i : Nat) (s : State) : (s.modHbm n f).port i = s.port i := rfl
@[simp] theorem State.modHbm_unit_epb (n : Nat) (f : Hbm → Hbm) (i : Nat) (s : State) : (s.modHbm n f).epb i = s.epb i := rfl
@[simp] theorem State.modHbm_unit_cluster (n : Nat) (f : Hbm → Hbm) (i : Nat) (s : State) : (s.modHbm n f).cluster i = s.cluster i := rfl
@[simp] theorem State.modHbm_unit_host (n : Nat) (f : Hbm → Hbm) (i : Nat) (s : State) : (s.modHbm n f).host i = s.host i := rfl
@[simp] theorem State.modHbm_unit_xp (n : Nat) (f : Hbm → Hbm) (i : Nat) (s : State) : (s.modHbm n f).xp i = s.xp i := rfl
@[simp] theorem State.modHbm_unit_core (n : Nat) (f : Hbm → Hbm) (i j : Nat) (s : State) : (s.modHbm n f).core i j = s.core i j := rfl
@[simp] theorem State.modHbm_unit_te (n : Nat) (f : Hbm → Hbm) (i j : Nat) (s : State) : (s.modHbm n f).te i j = s.te i j := rfl

/-! ### `modXp` -/

@[simp] theorem State.modXp_pending (n : Nat) (f : Xp → Xp) (s : State) : (s.modXp n f).pending = s.pending := rfl
@[simp] theorem State.modXp_now (n : Nat) (f : Xp → Xp) (s : State) : (s.modXp n f).now = s.now := rfl
@[simp] theorem State.modXp_free (n : Nat) (f : Xp → Xp) (s : State) : (s.modXp n f).free = s.free := rfl
@[simp] theorem State.modXp_out (n : Nat) (f : Xp → Xp) (s : State) : (s.modXp n f).out = s.out := rfl
@[simp] theorem State.modXp_boot (n : Nat) (f : Xp → Xp) (s : State) : (s.modXp n f).boot = s.boot := rfl
@[simp] theorem State.modXp_glob (n : Nat) (f : Xp → Xp) (s : State) : (s.modXp n f).glob = s.glob := rfl
@[simp] theorem State.modXp_hosts (n : Nat) (f : Xp → Xp) (s : State) : (s.modXp n f).hosts = s.hosts := rfl
@[simp] theorem State.modXp_sw (n : Nat) (f : Xp → Xp) (s : State) : (s.modXp n f).sw = s.sw := rfl
@[simp] theorem State.modXp_ports (n : Nat) (f : Xp → Xp) (s : State) : (s.modXp n f).ports = s.ports := rfl
@[simp] theorem State.modXp_epbs (n : Nat) (f : Xp → Xp) (s : State) : (s.modXp n f).epbs = s.epbs := rfl
@[simp] theorem State.modXp_clusters (n : Nat) (f : Xp → Xp) (s : State) : (s.modXp n f).clusters = s.clusters := rfl
@[simp] theorem State.modXp_dev (n : Nat) (f : Xp → Xp) (s : State) : (s.modXp n f).dev = s.dev := rfl
@[simp] theorem State.modXp_ue (n : Nat) (f : Xp → Xp) (s : State) : (s.modXp n f).ue = s.ue := rfl
@[simp] theorem State.modXp_ce (n : Nat) (f : Xp → Xp) (s : State) : (s.modXp n f).ce = s.ce := rfl
@[simp] theorem State.modXp_hbms (n : Nat) (f : Xp → Xp) (s : State) : (s.modXp n f).hbms = s.hbms := rfl
@[simp] theorem State.modXp_xps (n : Nat) (f : Xp → Xp) (s : State) : (s.modXp n f).xps = SMap.upd Xp.reset s.xps n f := rfl
@[simp] theorem State.modXp_sill (n : Nat) (f : Xp → Xp) (s : State) : (s.modXp n f).sill = s.sill := rfl
@[simp] theorem State.modXp_power (n : Nat) (f : Xp → Xp) (s : State) : (s.modXp n f).power = s.power := rfl
@[simp] theorem State.modXp_sealCore (n : Nat) (f : Xp → Xp) (s : State) : (s.modXp n f).sealCore = s.sealCore := rfl
@[simp] theorem State.modXp_mgmt (n : Nat) (f : Xp → Xp) (s : State) : (s.modXp n f).mgmt = s.mgmt := rfl
@[simp] theorem State.modXp_sb (n : Nat) (f : Xp → Xp) (s : State) : (s.modXp n f).sb = s.sb := rfl
@[simp] theorem State.modXp_cnt (n : Nat) (f : Xp → Xp) (s : State) : (s.modXp n f).cnt = s.cnt := rfl
@[simp] theorem State.modXp_unit_port (n : Nat) (f : Xp → Xp) (i : Nat) (s : State) : (s.modXp n f).port i = s.port i := rfl
@[simp] theorem State.modXp_unit_epb (n : Nat) (f : Xp → Xp) (i : Nat) (s : State) : (s.modXp n f).epb i = s.epb i := rfl
@[simp] theorem State.modXp_unit_cluster (n : Nat) (f : Xp → Xp) (i : Nat) (s : State) : (s.modXp n f).cluster i = s.cluster i := rfl
@[simp] theorem State.modXp_unit_host (n : Nat) (f : Xp → Xp) (i : Nat) (s : State) : (s.modXp n f).host i = s.host i := rfl
@[simp] theorem State.modXp_unit_hbm (n : Nat) (f : Xp → Xp) (i : Nat) (s : State) : (s.modXp n f).hbm i = s.hbm i := rfl
@[simp] theorem State.modXp_unit_core (n : Nat) (f : Xp → Xp) (i j : Nat) (s : State) : (s.modXp n f).core i j = s.core i j := rfl
@[simp] theorem State.modXp_unit_te (n : Nat) (f : Xp → Xp) (i j : Nat) (s : State) : (s.modXp n f).te i j = s.te i j := rfl

/-! ### `modSw` -/

@[simp] theorem State.modSw_pending (f : Switch → Switch) (s : State) : (s.modSw f).pending = s.pending := rfl
@[simp] theorem State.modSw_now (f : Switch → Switch) (s : State) : (s.modSw f).now = s.now := rfl
@[simp] theorem State.modSw_free (f : Switch → Switch) (s : State) : (s.modSw f).free = s.free := rfl
@[simp] theorem State.modSw_out (f : Switch → Switch) (s : State) : (s.modSw f).out = s.out := rfl
@[simp] theorem State.modSw_boot (f : Switch → Switch) (s : State) : (s.modSw f).boot = s.boot := rfl
@[simp] theorem State.modSw_glob (f : Switch → Switch) (s : State) : (s.modSw f).glob = s.glob := rfl
@[simp] theorem State.modSw_hosts (f : Switch → Switch) (s : State) : (s.modSw f).hosts = s.hosts := rfl
@[simp] theorem State.modSw_sw (f : Switch → Switch) (s : State) : (s.modSw f).sw = f s.sw := rfl
@[simp] theorem State.modSw_ports (f : Switch → Switch) (s : State) : (s.modSw f).ports = s.ports := rfl
@[simp] theorem State.modSw_epbs (f : Switch → Switch) (s : State) : (s.modSw f).epbs = s.epbs := rfl
@[simp] theorem State.modSw_clusters (f : Switch → Switch) (s : State) : (s.modSw f).clusters = s.clusters := rfl
@[simp] theorem State.modSw_dev (f : Switch → Switch) (s : State) : (s.modSw f).dev = s.dev := rfl
@[simp] theorem State.modSw_ue (f : Switch → Switch) (s : State) : (s.modSw f).ue = s.ue := rfl
@[simp] theorem State.modSw_ce (f : Switch → Switch) (s : State) : (s.modSw f).ce = s.ce := rfl
@[simp] theorem State.modSw_hbms (f : Switch → Switch) (s : State) : (s.modSw f).hbms = s.hbms := rfl
@[simp] theorem State.modSw_xps (f : Switch → Switch) (s : State) : (s.modSw f).xps = s.xps := rfl
@[simp] theorem State.modSw_sill (f : Switch → Switch) (s : State) : (s.modSw f).sill = s.sill := rfl
@[simp] theorem State.modSw_power (f : Switch → Switch) (s : State) : (s.modSw f).power = s.power := rfl
@[simp] theorem State.modSw_sealCore (f : Switch → Switch) (s : State) : (s.modSw f).sealCore = s.sealCore := rfl
@[simp] theorem State.modSw_mgmt (f : Switch → Switch) (s : State) : (s.modSw f).mgmt = s.mgmt := rfl
@[simp] theorem State.modSw_sb (f : Switch → Switch) (s : State) : (s.modSw f).sb = s.sb := rfl
@[simp] theorem State.modSw_cnt (f : Switch → Switch) (s : State) : (s.modSw f).cnt = s.cnt := rfl
@[simp] theorem State.modSw_unit_port (f : Switch → Switch) (i : Nat) (s : State) : (s.modSw f).port i = s.port i := rfl
@[simp] theorem State.modSw_unit_epb (f : Switch → Switch) (i : Nat) (s : State) : (s.modSw f).epb i = s.epb i := rfl
@[simp] theorem State.modSw_unit_cluster (f : Switch → Switch) (i : Nat) (s : State) : (s.modSw f).cluster i = s.cluster i := rfl
@[simp] theorem State.modSw_unit_host (f : Switch → Switch) (i : Nat) (s : State) : (s.modSw f).host i = s.host i := rfl
@[simp] theorem State.modSw_unit_hbm (f : Switch → Switch) (i : Nat) (s : State) : (s.modSw f).hbm i = s.hbm i := rfl
@[simp] theorem State.modSw_unit_xp (f : Switch → Switch) (i : Nat) (s : State) : (s.modSw f).xp i = s.xp i := rfl
@[simp] theorem State.modSw_unit_core (f : Switch → Switch) (i j : Nat) (s : State) : (s.modSw f).core i j = s.core i j := rfl
@[simp] theorem State.modSw_unit_te (f : Switch → Switch) (i j : Nat) (s : State) : (s.modSw f).te i j = s.te i j := rfl

/-! ### `modGlob` -/

@[simp] theorem State.modGlob_pending (f : Global → Global) (s : State) : (s.modGlob f).pending = s.pending := rfl
@[simp] theorem State.modGlob_now (f : Global → Global) (s : State) : (s.modGlob f).now = s.now := rfl
@[simp] theorem State.modGlob_free (f : Global → Global) (s : State) : (s.modGlob f).free = s.free := rfl
@[simp] theorem State.modGlob_out (f : Global → Global) (s : State) : (s.modGlob f).out = s.out := rfl
@[simp] theorem State.modGlob_boot (f : Global → Global) (s : State) : (s.modGlob f).boot = s.boot := rfl
@[simp] theorem State.modGlob_glob (f : Global → Global) (s : State) : (s.modGlob f).glob = f s.glob := rfl
@[simp] theorem State.modGlob_hosts (f : Global → Global) (s : State) : (s.modGlob f).hosts = s.hosts := rfl
@[simp] theorem State.modGlob_sw (f : Global → Global) (s : State) : (s.modGlob f).sw = s.sw := rfl
@[simp] theorem State.modGlob_ports (f : Global → Global) (s : State) : (s.modGlob f).ports = s.ports := rfl
@[simp] theorem State.modGlob_epbs (f : Global → Global) (s : State) : (s.modGlob f).epbs = s.epbs := rfl
@[simp] theorem State.modGlob_clusters (f : Global → Global) (s : State) : (s.modGlob f).clusters = s.clusters := rfl
@[simp] theorem State.modGlob_dev (f : Global → Global) (s : State) : (s.modGlob f).dev = s.dev := rfl
@[simp] theorem State.modGlob_ue (f : Global → Global) (s : State) : (s.modGlob f).ue = s.ue := rfl
@[simp] theorem State.modGlob_ce (f : Global → Global) (s : State) : (s.modGlob f).ce = s.ce := rfl
@[simp] theorem State.modGlob_hbms (f : Global → Global) (s : State) : (s.modGlob f).hbms = s.hbms := rfl
@[simp] theorem State.modGlob_xps (f : Global → Global) (s : State) : (s.modGlob f).xps = s.xps := rfl
@[simp] theorem State.modGlob_sill (f : Global → Global) (s : State) : (s.modGlob f).sill = s.sill := rfl
@[simp] theorem State.modGlob_power (f : Global → Global) (s : State) : (s.modGlob f).power = s.power := rfl
@[simp] theorem State.modGlob_sealCore (f : Global → Global) (s : State) : (s.modGlob f).sealCore = s.sealCore := rfl
@[simp] theorem State.modGlob_mgmt (f : Global → Global) (s : State) : (s.modGlob f).mgmt = s.mgmt := rfl
@[simp] theorem State.modGlob_sb (f : Global → Global) (s : State) : (s.modGlob f).sb = s.sb := rfl
@[simp] theorem State.modGlob_cnt (f : Global → Global) (s : State) : (s.modGlob f).cnt = s.cnt := rfl
@[simp] theorem State.modGlob_unit_port (f : Global → Global) (i : Nat) (s : State) : (s.modGlob f).port i = s.port i := rfl
@[simp] theorem State.modGlob_unit_epb (f : Global → Global) (i : Nat) (s : State) : (s.modGlob f).epb i = s.epb i := rfl
@[simp] theorem State.modGlob_unit_cluster (f : Global → Global) (i : Nat) (s : State) : (s.modGlob f).cluster i = s.cluster i := rfl
@[simp] theorem State.modGlob_unit_host (f : Global → Global) (i : Nat) (s : State) : (s.modGlob f).host i = s.host i := rfl
@[simp] theorem State.modGlob_unit_hbm (f : Global → Global) (i : Nat) (s : State) : (s.modGlob f).hbm i = s.hbm i := rfl
@[simp] theorem State.modGlob_unit_xp (f : Global → Global) (i : Nat) (s : State) : (s.modGlob f).xp i = s.xp i := rfl
@[simp] theorem State.modGlob_unit_core (f : Global → Global) (i j : Nat) (s : State) : (s.modGlob f).core i j = s.core i j := rfl
@[simp] theorem State.modGlob_unit_te (f : Global → Global) (i j : Nat) (s : State) : (s.modGlob f).te i j = s.te i j := rfl

/-! ### `modBoot` -/

@[simp] theorem State.modBoot_pending (f : Boot → Boot) (s : State) : (s.modBoot f).pending = s.pending := rfl
@[simp] theorem State.modBoot_now (f : Boot → Boot) (s : State) : (s.modBoot f).now = s.now := rfl
@[simp] theorem State.modBoot_free (f : Boot → Boot) (s : State) : (s.modBoot f).free = s.free := rfl
@[simp] theorem State.modBoot_out (f : Boot → Boot) (s : State) : (s.modBoot f).out = s.out := rfl
@[simp] theorem State.modBoot_boot (f : Boot → Boot) (s : State) : (s.modBoot f).boot = f s.boot := rfl
@[simp] theorem State.modBoot_glob (f : Boot → Boot) (s : State) : (s.modBoot f).glob = s.glob := rfl
@[simp] theorem State.modBoot_hosts (f : Boot → Boot) (s : State) : (s.modBoot f).hosts = s.hosts := rfl
@[simp] theorem State.modBoot_sw (f : Boot → Boot) (s : State) : (s.modBoot f).sw = s.sw := rfl
@[simp] theorem State.modBoot_ports (f : Boot → Boot) (s : State) : (s.modBoot f).ports = s.ports := rfl
@[simp] theorem State.modBoot_epbs (f : Boot → Boot) (s : State) : (s.modBoot f).epbs = s.epbs := rfl
@[simp] theorem State.modBoot_clusters (f : Boot → Boot) (s : State) : (s.modBoot f).clusters = s.clusters := rfl
@[simp] theorem State.modBoot_dev (f : Boot → Boot) (s : State) : (s.modBoot f).dev = s.dev := rfl
@[simp] theorem State.modBoot_ue (f : Boot → Boot) (s : State) : (s.modBoot f).ue = s.ue := rfl
@[simp] theorem State.modBoot_ce (f : Boot → Boot) (s : State) : (s.modBoot f).ce = s.ce := rfl
@[simp] theorem State.modBoot_hbms (f : Boot → Boot) (s : State) : (s.modBoot f).hbms = s.hbms := rfl
@[simp] theorem State.modBoot_xps (f : Boot → Boot) (s : State) : (s.modBoot f).xps = s.xps := rfl
@[simp] theorem State.modBoot_sill (f : Boot → Boot) (s : State) : (s.modBoot f).sill = s.sill := rfl
@[simp] theorem State.modBoot_power (f : Boot → Boot) (s : State) : (s.modBoot f).power = s.power := rfl
@[simp] theorem State.modBoot_sealCore (f : Boot → Boot) (s : State) : (s.modBoot f).sealCore = s.sealCore := rfl
@[simp] theorem State.modBoot_mgmt (f : Boot → Boot) (s : State) : (s.modBoot f).mgmt = s.mgmt := rfl
@[simp] theorem State.modBoot_sb (f : Boot → Boot) (s : State) : (s.modBoot f).sb = s.sb := rfl
@[simp] theorem State.modBoot_cnt (f : Boot → Boot) (s : State) : (s.modBoot f).cnt = s.cnt := rfl
@[simp] theorem State.modBoot_unit_port (f : Boot → Boot) (i : Nat) (s : State) : (s.modBoot f).port i = s.port i := rfl
@[simp] theorem State.modBoot_unit_epb (f : Boot → Boot) (i : Nat) (s : State) : (s.modBoot f).epb i = s.epb i := rfl
@[simp] theorem State.modBoot_unit_cluster (f : Boot → Boot) (i : Nat) (s : State) : (s.modBoot f).cluster i = s.cluster i := rfl
@[simp] theorem State.modBoot_unit_host (f : Boot → Boot) (i : Nat) (s : State) : (s.modBoot f).host i = s.host i := rfl
@[simp] theorem State.modBoot_unit_hbm (f : Boot → Boot) (i : Nat) (s : State) : (s.modBoot f).hbm i = s.hbm i := rfl
@[simp] theorem State.modBoot_unit_xp (f : Boot → Boot) (i : Nat) (s : State) : (s.modBoot f).xp i = s.xp i := rfl
@[simp] theorem State.modBoot_unit_core (f : Boot → Boot) (i j : Nat) (s : State) : (s.modBoot f).core i j = s.core i j := rfl
@[simp] theorem State.modBoot_unit_te (f : Boot → Boot) (i j : Nat) (s : State) : (s.modBoot f).te i j = s.te i j := rfl

/-! ### `modPower` -/

@[simp] theorem State.modPower_pending (f : Power → Power) (s : State) : (s.modPower f).pending = s.pending := rfl
@[simp] theorem State.modPower_now (f : Power → Power) (s : State) : (s.modPower f).now = s.now := rfl
@[simp] theorem State.modPower_free (f : Power → Power) (s : State) : (s.modPower f).free = s.free := rfl
@[simp] theorem State.modPower_out (f : Power → Power) (s : State) : (s.modPower f).out = s.out := rfl
@[simp] theorem State.modPower_boot (f : Power → Power) (s : State) : (s.modPower f).boot = s.boot := rfl
@[simp] theorem State.modPower_glob (f : Power → Power) (s : State) : (s.modPower f).glob = s.glob := rfl
@[simp] theorem State.modPower_hosts (f : Power → Power) (s : State) : (s.modPower f).hosts = s.hosts := rfl
@[simp] theorem State.modPower_sw (f : Power → Power) (s : State) : (s.modPower f).sw = s.sw := rfl
@[simp] theorem State.modPower_ports (f : Power → Power) (s : State) : (s.modPower f).ports = s.ports := rfl
@[simp] theorem State.modPower_epbs (f : Power → Power) (s : State) : (s.modPower f).epbs = s.epbs := rfl
@[simp] theorem State.modPower_clusters (f : Power → Power) (s : State) : (s.modPower f).clusters = s.clusters := rfl
@[simp] theorem State.modPower_dev (f : Power → Power) (s : State) : (s.modPower f).dev = s.dev := rfl
@[simp] theorem State.modPower_ue (f : Power → Power) (s : State) : (s.modPower f).ue = s.ue := rfl
@[simp] theorem State.modPower_ce (f : Power → Power) (s : State) : (s.modPower f).ce = s.ce := rfl
@[simp] theorem State.modPower_hbms (f : Power → Power) (s : State) : (s.modPower f).hbms = s.hbms := rfl
@[simp] theorem State.modPower_xps (f : Power → Power) (s : State) : (s.modPower f).xps = s.xps := rfl
@[simp] theorem State.modPower_sill (f : Power → Power) (s : State) : (s.modPower f).sill = s.sill := rfl
@[simp] theorem State.modPower_power (f : Power → Power) (s : State) : (s.modPower f).power = f s.power := rfl
@[simp] theorem State.modPower_sealCore (f : Power → Power) (s : State) : (s.modPower f).sealCore = s.sealCore := rfl
@[simp] theorem State.modPower_mgmt (f : Power → Power) (s : State) : (s.modPower f).mgmt = s.mgmt := rfl
@[simp] theorem State.modPower_sb (f : Power → Power) (s : State) : (s.modPower f).sb = s.sb := rfl
@[simp] theorem State.modPower_cnt (f : Power → Power) (s : State) : (s.modPower f).cnt = s.cnt := rfl
@[simp] theorem State.modPower_unit_port (f : Power → Power) (i : Nat) (s : State) : (s.modPower f).port i = s.port i := rfl
@[simp] theorem State.modPower_unit_epb (f : Power → Power) (i : Nat) (s : State) : (s.modPower f).epb i = s.epb i := rfl
@[simp] theorem State.modPower_unit_cluster (f : Power → Power) (i : Nat) (s : State) : (s.modPower f).cluster i = s.cluster i := rfl
@[simp] theorem State.modPower_unit_host (f : Power → Power) (i : Nat) (s : State) : (s.modPower f).host i = s.host i := rfl
@[simp] theorem State.modPower_unit_hbm (f : Power → Power) (i : Nat) (s : State) : (s.modPower f).hbm i = s.hbm i := rfl
@[simp] theorem State.modPower_unit_xp (f : Power → Power) (i : Nat) (s : State) : (s.modPower f).xp i = s.xp i := rfl
@[simp] theorem State.modPower_unit_core (f : Power → Power) (i j : Nat) (s : State) : (s.modPower f).core i j = s.core i j := rfl
@[simp] theorem State.modPower_unit_te (f : Power → Power) (i j : Nat) (s : State) : (s.modPower f).te i j = s.te i j := rfl

/-! ### `modSeal` -/

@[simp] theorem State.modSeal_pending (f : Seal → Seal) (s : State) : (s.modSeal f).pending = s.pending := rfl
@[simp] theorem State.modSeal_now (f : Seal → Seal) (s : State) : (s.modSeal f).now = s.now := rfl
@[simp] theorem State.modSeal_free (f : Seal → Seal) (s : State) : (s.modSeal f).free = s.free := rfl
@[simp] theorem State.modSeal_out (f : Seal → Seal) (s : State) : (s.modSeal f).out = s.out := rfl
@[simp] theorem State.modSeal_boot (f : Seal → Seal) (s : State) : (s.modSeal f).boot = s.boot := rfl
@[simp] theorem State.modSeal_glob (f : Seal → Seal) (s : State) : (s.modSeal f).glob = s.glob := rfl
@[simp] theorem State.modSeal_hosts (f : Seal → Seal) (s : State) : (s.modSeal f).hosts = s.hosts := rfl
@[simp] theorem State.modSeal_sw (f : Seal → Seal) (s : State) : (s.modSeal f).sw = s.sw := rfl
@[simp] theorem State.modSeal_ports (f : Seal → Seal) (s : State) : (s.modSeal f).ports = s.ports := rfl
@[simp] theorem State.modSeal_epbs (f : Seal → Seal) (s : State) : (s.modSeal f).epbs = s.epbs := rfl
@[simp] theorem State.modSeal_clusters (f : Seal → Seal) (s : State) : (s.modSeal f).clusters = s.clusters := rfl
@[simp] theorem State.modSeal_dev (f : Seal → Seal) (s : State) : (s.modSeal f).dev = s.dev := rfl
@[simp] theorem State.modSeal_ue (f : Seal → Seal) (s : State) : (s.modSeal f).ue = s.ue := rfl
@[simp] theorem State.modSeal_ce (f : Seal → Seal) (s : State) : (s.modSeal f).ce = s.ce := rfl
@[simp] theorem State.modSeal_hbms (f : Seal → Seal) (s : State) : (s.modSeal f).hbms = s.hbms := rfl
@[simp] theorem State.modSeal_xps (f : Seal → Seal) (s : State) : (s.modSeal f).xps = s.xps := rfl
@[simp] theorem State.modSeal_sill (f : Seal → Seal) (s : State) : (s.modSeal f).sill = s.sill := rfl
@[simp] theorem State.modSeal_power (f : Seal → Seal) (s : State) : (s.modSeal f).power = s.power := rfl
@[simp] theorem State.modSeal_sealCore (f : Seal → Seal) (s : State) : (s.modSeal f).sealCore = f s.sealCore := rfl
@[simp] theorem State.modSeal_mgmt (f : Seal → Seal) (s : State) : (s.modSeal f).mgmt = s.mgmt := rfl
@[simp] theorem State.modSeal_sb (f : Seal → Seal) (s : State) : (s.modSeal f).sb = s.sb := rfl
@[simp] theorem State.modSeal_cnt (f : Seal → Seal) (s : State) : (s.modSeal f).cnt = s.cnt := rfl
@[simp] theorem State.modSeal_unit_port (f : Seal → Seal) (i : Nat) (s : State) : (s.modSeal f).port i = s.port i := rfl
@[simp] theorem State.modSeal_unit_epb (f : Seal → Seal) (i : Nat) (s : State) : (s.modSeal f).epb i = s.epb i := rfl
@[simp] theorem State.modSeal_unit_cluster (f : Seal → Seal) (i : Nat) (s : State) : (s.modSeal f).cluster i = s.cluster i := rfl
@[simp] theorem State.modSeal_unit_host (f : Seal → Seal) (i : Nat) (s : State) : (s.modSeal f).host i = s.host i := rfl
@[simp] theorem State.modSeal_unit_hbm (f : Seal → Seal) (i : Nat) (s : State) : (s.modSeal f).hbm i = s.hbm i := rfl
@[simp] theorem State.modSeal_unit_xp (f : Seal → Seal) (i : Nat) (s : State) : (s.modSeal f).xp i = s.xp i := rfl
@[simp] theorem State.modSeal_unit_core (f : Seal → Seal) (i j : Nat) (s : State) : (s.modSeal f).core i j = s.core i j := rfl
@[simp] theorem State.modSeal_unit_te (f : Seal → Seal) (i j : Nat) (s : State) : (s.modSeal f).te i j = s.te i j := rfl

/-! ### `modMgmt` -/

@[simp] theorem State.modMgmt_pending (f : Mgmt → Mgmt) (s : State) : (s.modMgmt f).pending = s.pending := rfl
@[simp] theorem State.modMgmt_now (f : Mgmt → Mgmt) (s : State) : (s.modMgmt f).now = s.now := rfl
@[simp] theorem State.modMgmt_free (f : Mgmt → Mgmt) (s : State) : (s.modMgmt f).free = s.free := rfl
@[simp] theorem State.modMgmt_out (f : Mgmt → Mgmt) (s : State) : (s.modMgmt f).out = s.out := rfl
@[simp] theorem State.modMgmt_boot (f : Mgmt → Mgmt) (s : State) : (s.modMgmt f).boot = s.boot := rfl
@[simp] theorem State.modMgmt_glob (f : Mgmt → Mgmt) (s : State) : (s.modMgmt f).glob = s.glob := rfl
@[simp] theorem State.modMgmt_hosts (f : Mgmt → Mgmt) (s : State) : (s.modMgmt f).hosts = s.hosts := rfl
@[simp] theorem State.modMgmt_sw (f : Mgmt → Mgmt) (s : State) : (s.modMgmt f).sw = s.sw := rfl
@[simp] theorem State.modMgmt_ports (f : Mgmt → Mgmt) (s : State) : (s.modMgmt f).ports = s.ports := rfl
@[simp] theorem State.modMgmt_epbs (f : Mgmt → Mgmt) (s : State) : (s.modMgmt f).epbs = s.epbs := rfl
@[simp] theorem State.modMgmt_clusters (f : Mgmt → Mgmt) (s : State) : (s.modMgmt f).clusters = s.clusters := rfl
@[simp] theorem State.modMgmt_dev (f : Mgmt → Mgmt) (s : State) : (s.modMgmt f).dev = s.dev := rfl
@[simp] theorem State.modMgmt_ue (f : Mgmt → Mgmt) (s : State) : (s.modMgmt f).ue = s.ue := rfl
@[simp] theorem State.modMgmt_ce (f : Mgmt → Mgmt) (s : State) : (s.modMgmt f).ce = s.ce := rfl
@[simp] theorem State.modMgmt_hbms (f : Mgmt → Mgmt) (s : State) : (s.modMgmt f).hbms = s.hbms := rfl
@[simp] theorem State.modMgmt_xps (f : Mgmt → Mgmt) (s : State) : (s.modMgmt f).xps = s.xps := rfl
@[simp] theorem State.modMgmt_sill (f : Mgmt → Mgmt) (s : State) : (s.modMgmt f).sill = s.sill := rfl
@[simp] theorem State.modMgmt_power (f : Mgmt → Mgmt) (s : State) : (s.modMgmt f).power = s.power := rfl
@[simp] theorem State.modMgmt_sealCore (f : Mgmt → Mgmt) (s : State) : (s.modMgmt f).sealCore = s.sealCore := rfl
@[simp] theorem State.modMgmt_mgmt (f : Mgmt → Mgmt) (s : State) : (s.modMgmt f).mgmt = f s.mgmt := rfl
@[simp] theorem State.modMgmt_sb (f : Mgmt → Mgmt) (s : State) : (s.modMgmt f).sb = s.sb := rfl
@[simp] theorem State.modMgmt_cnt (f : Mgmt → Mgmt) (s : State) : (s.modMgmt f).cnt = s.cnt := rfl
@[simp] theorem State.modMgmt_unit_port (f : Mgmt → Mgmt) (i : Nat) (s : State) : (s.modMgmt f).port i = s.port i := rfl
@[simp] theorem State.modMgmt_unit_epb (f : Mgmt → Mgmt) (i : Nat) (s : State) : (s.modMgmt f).epb i = s.epb i := rfl
@[simp] theorem State.modMgmt_unit_cluster (f : Mgmt → Mgmt) (i : Nat) (s : State) : (s.modMgmt f).cluster i = s.cluster i := rfl
@[simp] theorem State.modMgmt_unit_host (f : Mgmt → Mgmt) (i : Nat) (s : State) : (s.modMgmt f).host i = s.host i := rfl
@[simp] theorem State.modMgmt_unit_hbm (f : Mgmt → Mgmt) (i : Nat) (s : State) : (s.modMgmt f).hbm i = s.hbm i := rfl
@[simp] theorem State.modMgmt_unit_xp (f : Mgmt → Mgmt) (i : Nat) (s : State) : (s.modMgmt f).xp i = s.xp i := rfl
@[simp] theorem State.modMgmt_unit_core (f : Mgmt → Mgmt) (i j : Nat) (s : State) : (s.modMgmt f).core i j = s.core i j := rfl
@[simp] theorem State.modMgmt_unit_te (f : Mgmt → Mgmt) (i j : Nat) (s : State) : (s.modMgmt f).te i j = s.te i j := rfl

/-! ### `modSb` -/

@[simp] theorem State.modSb_pending (f : Sideband → Sideband) (s : State) : (s.modSb f).pending = s.pending := rfl
@[simp] theorem State.modSb_now (f : Sideband → Sideband) (s : State) : (s.modSb f).now = s.now := rfl
@[simp] theorem State.modSb_free (f : Sideband → Sideband) (s : State) : (s.modSb f).free = s.free := rfl
@[simp] theorem State.modSb_out (f : Sideband → Sideband) (s : State) : (s.modSb f).out = s.out := rfl
@[simp] theorem State.modSb_boot (f : Sideband → Sideband) (s : State) : (s.modSb f).boot = s.boot := rfl
@[simp] theorem State.modSb_glob (f : Sideband → Sideband) (s : State) : (s.modSb f).glob = s.glob := rfl
@[simp] theorem State.modSb_hosts (f : Sideband → Sideband) (s : State) : (s.modSb f).hosts = s.hosts := rfl
@[simp] theorem State.modSb_sw (f : Sideband → Sideband) (s : State) : (s.modSb f).sw = s.sw := rfl
@[simp] theorem State.modSb_ports (f : Sideband → Sideband) (s : State) : (s.modSb f).ports = s.ports := rfl
@[simp] theorem State.modSb_epbs (f : Sideband → Sideband) (s : State) : (s.modSb f).epbs = s.epbs := rfl
@[simp] theorem State.modSb_clusters (f : Sideband → Sideband) (s : State) : (s.modSb f).clusters = s.clusters := rfl
@[simp] theorem State.modSb_dev (f : Sideband → Sideband) (s : State) : (s.modSb f).dev = s.dev := rfl
@[simp] theorem State.modSb_ue (f : Sideband → Sideband) (s : State) : (s.modSb f).ue = s.ue := rfl
@[simp] theorem State.modSb_ce (f : Sideband → Sideband) (s : State) : (s.modSb f).ce = s.ce := rfl
@[simp] theorem State.modSb_hbms (f : Sideband → Sideband) (s : State) : (s.modSb f).hbms = s.hbms := rfl
@[simp] theorem State.modSb_xps (f : Sideband → Sideband) (s : State) : (s.modSb f).xps = s.xps := rfl
@[simp] theorem State.modSb_sill (f : Sideband → Sideband) (s : State) : (s.modSb f).sill = s.sill := rfl
@[simp] theorem State.modSb_power (f : Sideband → Sideband) (s : State) : (s.modSb f).power = s.power := rfl
@[simp] theorem State.modSb_sealCore (f : Sideband → Sideband) (s : State) : (s.modSb f).sealCore = s.sealCore := rfl
@[simp] theorem State.modSb_mgmt (f : Sideband → Sideband) (s : State) : (s.modSb f).mgmt = s.mgmt := rfl
@[simp] theorem State.modSb_sb (f : Sideband → Sideband) (s : State) : (s.modSb f).sb = f s.sb := rfl
@[simp] theorem State.modSb_cnt (f : Sideband → Sideband) (s : State) : (s.modSb f).cnt = s.cnt := rfl
@[simp] theorem State.modSb_unit_port (f : Sideband → Sideband) (i : Nat) (s : State) : (s.modSb f).port i = s.port i := rfl
@[simp] theorem State.modSb_unit_epb (f : Sideband → Sideband) (i : Nat) (s : State) : (s.modSb f).epb i = s.epb i := rfl
@[simp] theorem State.modSb_unit_cluster (f : Sideband → Sideband) (i : Nat) (s : State) : (s.modSb f).cluster i = s.cluster i := rfl
@[simp] theorem State.modSb_unit_host (f : Sideband → Sideband) (i : Nat) (s : State) : (s.modSb f).host i = s.host i := rfl
@[simp] theorem State.modSb_unit_hbm (f : Sideband → Sideband) (i : Nat) (s : State) : (s.modSb f).hbm i = s.hbm i := rfl
@[simp] theorem State.modSb_unit_xp (f : Sideband → Sideband) (i : Nat) (s : State) : (s.modSb f).xp i = s.xp i := rfl
@[simp] theorem State.modSb_unit_core (f : Sideband → Sideband) (i j : Nat) (s : State) : (s.modSb f).core i j = s.core i j := rfl
@[simp] theorem State.modSb_unit_te (f : Sideband → Sideband) (i j : Nat) (s : State) : (s.modSb f).te i j = s.te i j := rfl

/-! ### `modSill` -/

@[simp] theorem State.modSill_pending (f : Sillage → Sillage) (s : State) : (s.modSill f).pending = s.pending := rfl
@[simp] theorem State.modSill_now (f : Sillage → Sillage) (s : State) : (s.modSill f).now = s.now := rfl
@[simp] theorem State.modSill_free (f : Sillage → Sillage) (s : State) : (s.modSill f).free = s.free := rfl
@[simp] theorem State.modSill_out (f : Sillage → Sillage) (s : State) : (s.modSill f).out = s.out := rfl
@[simp] theorem State.modSill_boot (f : Sillage → Sillage) (s : State) : (s.modSill f).boot = s.boot := rfl
@[simp] theorem State.modSill_glob (f : Sillage → Sillage) (s : State) : (s.modSill f).glob = s.glob := rfl
@[simp] theorem State.modSill_hosts (f : Sillage → Sillage) (s : State) : (s.modSill f).hosts = s.hosts := rfl
@[simp] theorem State.modSill_sw (f : Sillage → Sillage) (s : State) : (s.modSill f).sw = s.sw := rfl
@[simp] theorem State.modSill_ports (f : Sillage → Sillage) (s : State) : (s.modSill f).ports = s.ports := rfl
@[simp] theorem State.modSill_epbs (f : Sillage → Sillage) (s : State) : (s.modSill f).epbs = s.epbs := rfl
@[simp] theorem State.modSill_clusters (f : Sillage → Sillage) (s : State) : (s.modSill f).clusters = s.clusters := rfl
@[simp] theorem State.modSill_dev (f : Sillage → Sillage) (s : State) : (s.modSill f).dev = s.dev := rfl
@[simp] theorem State.modSill_ue (f : Sillage → Sillage) (s : State) : (s.modSill f).ue = s.ue := rfl
@[simp] theorem State.modSill_ce (f : Sillage → Sillage) (s : State) : (s.modSill f).ce = s.ce := rfl
@[simp] theorem State.modSill_hbms (f : Sillage → Sillage) (s : State) : (s.modSill f).hbms = s.hbms := rfl
@[simp] theorem State.modSill_xps (f : Sillage → Sillage) (s : State) : (s.modSill f).xps = s.xps := rfl
@[simp] theorem State.modSill_sill (f : Sillage → Sillage) (s : State) : (s.modSill f).sill = f s.sill := rfl
@[simp] theorem State.modSill_power (f : Sillage → Sillage) (s : State) : (s.modSill f).power = s.power := rfl
@[simp] theorem State.modSill_sealCore (f : Sillage → Sillage) (s : State) : (s.modSill f).sealCore = s.sealCore := rfl
@[simp] theorem State.modSill_mgmt (f : Sillage → Sillage) (s : State) : (s.modSill f).mgmt = s.mgmt := rfl
@[simp] theorem State.modSill_sb (f : Sillage → Sillage) (s : State) : (s.modSill f).sb = s.sb := rfl
@[simp] theorem State.modSill_cnt (f : Sillage → Sillage) (s : State) : (s.modSill f).cnt = s.cnt := rfl
@[simp] theorem State.modSill_unit_port (f : Sillage → Sillage) (i : Nat) (s : State) : (s.modSill f).port i = s.port i := rfl
@[simp] theorem State.modSill_unit_epb (f : Sillage → Sillage) (i : Nat) (s : State) : (s.modSill f).epb i = s.epb i := rfl
@[simp] theorem State.modSill_unit_cluster (f : Sillage → Sillage) (i : Nat) (s : State) : (s.modSill f).cluster i = s.cluster i := rfl
@[simp] theorem State.modSill_unit_host (f : Sillage → Sillage) (i : Nat) (s : State) : (s.modSill f).host i = s.host i := rfl
@[simp] theorem State.modSill_unit_hbm (f : Sillage → Sillage) (i : Nat) (s : State) : (s.modSill f).hbm i = s.hbm i := rfl
@[simp] theorem State.modSill_unit_xp (f : Sillage → Sillage) (i : Nat) (s : State) : (s.modSill f).xp i = s.xp i := rfl
@[simp] theorem State.modSill_unit_core (f : Sillage → Sillage) (i j : Nat) (s : State) : (s.modSill f).core i j = s.core i j := rfl
@[simp] theorem State.modSill_unit_te (f : Sillage → Sillage) (i j : Nat) (s : State) : (s.modSill f).te i j = s.te i j := rfl

/-! ### `modCnt` -/

@[simp] theorem State.modCnt_pending (f : Counters → Counters) (s : State) : (s.modCnt f).pending = s.pending := rfl
@[simp] theorem State.modCnt_now (f : Counters → Counters) (s : State) : (s.modCnt f).now = s.now := rfl
@[simp] theorem State.modCnt_free (f : Counters → Counters) (s : State) : (s.modCnt f).free = s.free := rfl
@[simp] theorem State.modCnt_out (f : Counters → Counters) (s : State) : (s.modCnt f).out = s.out := rfl
@[simp] theorem State.modCnt_boot (f : Counters → Counters) (s : State) : (s.modCnt f).boot = s.boot := rfl
@[simp] theorem State.modCnt_glob (f : Counters → Counters) (s : State) : (s.modCnt f).glob = s.glob := rfl
@[simp] theorem State.modCnt_hosts (f : Counters → Counters) (s : State) : (s.modCnt f).hosts = s.hosts := rfl
@[simp] theorem State.modCnt_sw (f : Counters → Counters) (s : State) : (s.modCnt f).sw = s.sw := rfl
@[simp] theorem State.modCnt_ports (f : Counters → Counters) (s : State) : (s.modCnt f).ports = s.ports := rfl
@[simp] theorem State.modCnt_epbs (f : Counters → Counters) (s : State) : (s.modCnt f).epbs = s.epbs := rfl
@[simp] theorem State.modCnt_clusters (f : Counters → Counters) (s : State) : (s.modCnt f).clusters = s.clusters := rfl
@[simp] theorem State.modCnt_dev (f : Counters → Counters) (s : State) : (s.modCnt f).dev = s.dev := rfl
@[simp] theorem State.modCnt_ue (f : Counters → Counters) (s : State) : (s.modCnt f).ue = s.ue := rfl
@[simp] theorem State.modCnt_ce (f : Counters → Counters) (s : State) : (s.modCnt f).ce = s.ce := rfl
@[simp] theorem State.modCnt_hbms (f : Counters → Counters) (s : State) : (s.modCnt f).hbms = s.hbms := rfl
@[simp] theorem State.modCnt_xps (f : Counters → Counters) (s : State) : (s.modCnt f).xps = s.xps := rfl
@[simp] theorem State.modCnt_sill (f : Counters → Counters) (s : State) : (s.modCnt f).sill = s.sill := rfl
@[simp] theorem State.modCnt_power (f : Counters → Counters) (s : State) : (s.modCnt f).power = s.power := rfl
@[simp] theorem State.modCnt_sealCore (f : Counters → Counters) (s : State) : (s.modCnt f).sealCore = s.sealCore := rfl
@[simp] theorem State.modCnt_mgmt (f : Counters → Counters) (s : State) : (s.modCnt f).mgmt = s.mgmt := rfl
@[simp] theorem State.modCnt_sb (f : Counters → Counters) (s : State) : (s.modCnt f).sb = s.sb := rfl
@[simp] theorem State.modCnt_cnt (f : Counters → Counters) (s : State) : (s.modCnt f).cnt = f s.cnt := rfl
@[simp] theorem State.modCnt_unit_port (f : Counters → Counters) (i : Nat) (s : State) : (s.modCnt f).port i = s.port i := rfl
@[simp] theorem State.modCnt_unit_epb (f : Counters → Counters) (i : Nat) (s : State) : (s.modCnt f).epb i = s.epb i := rfl
@[simp] theorem State.modCnt_unit_cluster (f : Counters → Counters) (i : Nat) (s : State) : (s.modCnt f).cluster i = s.cluster i := rfl
@[simp] theorem State.modCnt_unit_host (f : Counters → Counters) (i : Nat) (s : State) : (s.modCnt f).host i = s.host i := rfl
@[simp] theorem State.modCnt_unit_hbm (f : Counters → Counters) (i : Nat) (s : State) : (s.modCnt f).hbm i = s.hbm i := rfl
@[simp] theorem State.modCnt_unit_xp (f : Counters → Counters) (i : Nat) (s : State) : (s.modCnt f).xp i = s.xp i := rfl
@[simp] theorem State.modCnt_unit_core (f : Counters → Counters) (i j : Nat) (s : State) : (s.modCnt f).core i j = s.core i j := rfl
@[simp] theorem State.modCnt_unit_te (f : Counters → Counters) (i j : Nat) (s : State) : (s.modCnt f).te i j = s.te i j := rfl

/-! ### `emit` -/

@[simp] theorem State.emit_pending (o : Output) (s : State) : (s.emit o).pending = s.pending := rfl
@[simp] theorem State.emit_now (o : Output) (s : State) : (s.emit o).now = s.now := rfl
@[simp] theorem State.emit_free (o : Output) (s : State) : (s.emit o).free = s.free := rfl
@[simp] theorem State.emit_out (o : Output) (s : State) : (s.emit o).out = o :: s.out := rfl
@[simp] theorem State.emit_boot (o : Output) (s : State) : (s.emit o).boot = s.boot := rfl
@[simp] theorem State.emit_glob (o : Output) (s : State) : (s.emit o).glob = s.glob := rfl
@[simp] theorem State.emit_hosts (o : Output) (s : State) : (s.emit o).hosts = s.hosts := rfl
@[simp] theorem State.emit_sw (o : Output) (s : State) : (s.emit o).sw = s.sw := rfl
@[simp] theorem State.emit_ports (o : Output) (s : State) : (s.emit o).ports = s.ports := rfl
@[simp] theorem State.emit_epbs (o : Output) (s : State) : (s.emit o).epbs = s.epbs := rfl
@[simp] theorem State.emit_clusters (o : Output) (s : State) : (s.emit o).clusters = s.clusters := rfl
@[simp] theorem State.emit_dev (o : Output) (s : State) : (s.emit o).dev = s.dev := rfl
@[simp] theorem State.emit_ue (o : Output) (s : State) : (s.emit o).ue = s.ue := rfl
@[simp] theorem State.emit_ce (o : Output) (s : State) : (s.emit o).ce = s.ce := rfl
@[simp] theorem State.emit_hbms (o : Output) (s : State) : (s.emit o).hbms = s.hbms := rfl
@[simp] theorem State.emit_xps (o : Output) (s : State) : (s.emit o).xps = s.xps := rfl
@[simp] theorem State.emit_sill (o : Output) (s : State) : (s.emit o).sill = s.sill := rfl
@[simp] theorem State.emit_power (o : Output) (s : State) : (s.emit o).power = s.power := rfl
@[simp] theorem State.emit_sealCore (o : Output) (s : State) : (s.emit o).sealCore = s.sealCore := rfl
@[simp] theorem State.emit_mgmt (o : Output) (s : State) : (s.emit o).mgmt = s.mgmt := rfl
@[simp] theorem State.emit_sb (o : Output) (s : State) : (s.emit o).sb = s.sb := rfl
@[simp] theorem State.emit_cnt (o : Output) (s : State) : (s.emit o).cnt = s.cnt := rfl
@[simp] theorem State.emit_unit_port (o : Output) (i : Nat) (s : State) : (s.emit o).port i = s.port i := rfl
@[simp] theorem State.emit_unit_epb (o : Output) (i : Nat) (s : State) : (s.emit o).epb i = s.epb i := rfl
@[simp] theorem State.emit_unit_cluster (o : Output) (i : Nat) (s : State) : (s.emit o).cluster i = s.cluster i := rfl
@[simp] theorem State.emit_unit_host (o : Output) (i : Nat) (s : State) : (s.emit o).host i = s.host i := rfl
@[simp] theorem State.emit_unit_hbm (o : Output) (i : Nat) (s : State) : (s.emit o).hbm i = s.hbm i := rfl
@[simp] theorem State.emit_unit_xp (o : Output) (i : Nat) (s : State) : (s.emit o).xp i = s.xp i := rfl
@[simp] theorem State.emit_unit_core (o : Output) (i j : Nat) (s : State) : (s.emit o).core i j = s.core i j := rfl
@[simp] theorem State.emit_unit_te (o : Output) (i j : Nat) (s : State) : (s.emit o).te i j = s.te i j := rfl

/-! ### `drawn` -/

@[simp] theorem State.drawn_pending (s : State) : (s.drawn).pending = s.pending := rfl
@[simp] theorem State.drawn_now (s : State) : (s.drawn).now = s.now := rfl
@[simp] theorem State.drawn_free (s : State) : (s.drawn).free = s.free + 1 := rfl
@[simp] theorem State.drawn_out (s : State) : (s.drawn).out = s.out := rfl
@[simp] theorem State.drawn_boot (s : State) : (s.drawn).boot = s.boot := rfl
@[simp] theorem State.drawn_glob (s : State) : (s.drawn).glob = s.glob := rfl
@[simp] theorem State.drawn_hosts (s : State) : (s.drawn).hosts = s.hosts := rfl
@[simp] theorem State.drawn_sw (s : State) : (s.drawn).sw = s.sw := rfl
@[simp] theorem State.drawn_ports (s : State) : (s.drawn).ports = s.ports := rfl
@[simp] theorem State.drawn_epbs (s : State) : (s.drawn).epbs = s.epbs := rfl
@[simp] theorem State.drawn_clusters (s : State) : (s.drawn).clusters = s.clusters := rfl
@[simp] theorem State.drawn_dev (s : State) : (s.drawn).dev = s.dev := rfl
@[simp] theorem State.drawn_ue (s : State) : (s.drawn).ue = s.ue := rfl
@[simp] theorem State.drawn_ce (s : State) : (s.drawn).ce = s.ce := rfl
@[simp] theorem State.drawn_hbms (s : State) : (s.drawn).hbms = s.hbms := rfl
@[simp] theorem State.drawn_xps (s : State) : (s.drawn).xps = s.xps := rfl
@[simp] theorem State.drawn_sill (s : State) : (s.drawn).sill = s.sill := rfl
@[simp] theorem State.drawn_power (s : State) : (s.drawn).power = s.power := rfl
@[simp] theorem State.drawn_sealCore (s : State) : (s.drawn).sealCore = s.sealCore := rfl
@[simp] theorem State.drawn_mgmt (s : State) : (s.drawn).mgmt = s.mgmt := rfl
@[simp] theorem State.drawn_sb (s : State) : (s.drawn).sb = s.sb := rfl
@[simp] theorem State.drawn_cnt (s : State) : (s.drawn).cnt = s.cnt := rfl
@[simp] theorem State.drawn_unit_port (i : Nat) (s : State) : (s.drawn).port i = s.port i := rfl
@[simp] theorem State.drawn_unit_epb (i : Nat) (s : State) : (s.drawn).epb i = s.epb i := rfl
@[simp] theorem State.drawn_unit_cluster (i : Nat) (s : State) : (s.drawn).cluster i = s.cluster i := rfl
@[simp] theorem State.drawn_unit_host (i : Nat) (s : State) : (s.drawn).host i = s.host i := rfl
@[simp] theorem State.drawn_unit_hbm (i : Nat) (s : State) : (s.drawn).hbm i = s.hbm i := rfl
@[simp] theorem State.drawn_unit_xp (i : Nat) (s : State) : (s.drawn).xp i = s.xp i := rfl
@[simp] theorem State.drawn_unit_core (i j : Nat) (s : State) : (s.drawn).core i j = s.core i j := rfl
@[simp] theorem State.drawn_unit_te (i j : Nat) (s : State) : (s.drawn).te i j = s.te i j := rfl

/-! ### Units -/

/-- Changing one unit leaves the others. -/
theorem State.modPort_other (n i : Nat) (f : Port → Port) (s : State) (h : n ≠ i) : (s.modPort n f).port i = s.port i :=
  SMap.get_set_other _ _ _ _ _ h

/-- The unit changed holds the new value, which is not its reset value. -/
theorem State.modPort_same (n : Nat) (f : Port → Port) (s : State) (h : f (s.port n) ≠ Port.reset) :
    (s.modPort n f).port n = f (s.port n) :=
  SMap.get_set_value _ _ _ _ h

/-- The unit changed holds the new value, in a map of canonical form. -/
theorem State.modPort_same_wf (n : Nat) (f : Port → Port) (s : State) (h : SMap.wf Port.reset s.ports = true) :
    (s.modPort n f).port n = f (s.port n) :=
  SMap.get_set_same _ _ _ _ none h

/-- Changing one unit leaves the others. -/
theorem State.modEpb_other (n i : Nat) (f : Epb → Epb) (s : State) (h : n ≠ i) : (s.modEpb n f).epb i = s.epb i :=
  SMap.get_set_other _ _ _ _ _ h

/-- The unit changed holds the new value, which is not its reset value. -/
theorem State.modEpb_same (n : Nat) (f : Epb → Epb) (s : State) (h : f (s.epb n) ≠ Epb.reset) :
    (s.modEpb n f).epb n = f (s.epb n) :=
  SMap.get_set_value _ _ _ _ h

/-- The unit changed holds the new value, in a map of canonical form. -/
theorem State.modEpb_same_wf (n : Nat) (f : Epb → Epb) (s : State) (h : SMap.wf Epb.reset s.epbs = true) :
    (s.modEpb n f).epb n = f (s.epb n) :=
  SMap.get_set_same _ _ _ _ none h

/-- Changing one unit leaves the others. -/
theorem State.modCluster_other (n i : Nat) (f : Cluster → Cluster) (s : State) (h : n ≠ i) : (s.modCluster n f).cluster i = s.cluster i :=
  SMap.get_set_other _ _ _ _ _ h

/-- The unit changed holds the new value, which is not its reset value. -/
theorem State.modCluster_same (n : Nat) (f : Cluster → Cluster) (s : State) (h : f (s.cluster n) ≠ Cluster.reset) :
    (s.modCluster n f).cluster n = f (s.cluster n) :=
  SMap.get_set_value _ _ _ _ h

/-- The unit changed holds the new value, in a map of canonical form. -/
theorem State.modCluster_same_wf (n : Nat) (f : Cluster → Cluster) (s : State) (h : SMap.wf Cluster.reset s.clusters = true) :
    (s.modCluster n f).cluster n = f (s.cluster n) :=
  SMap.get_set_same _ _ _ _ none h

/-- Changing one unit leaves the others. -/
theorem State.modHost_other (n i : Nat) (f : HostPort → HostPort) (s : State) (h : n ≠ i) : (s.modHost n f).host i = s.host i :=
  SMap.get_set_other _ _ _ _ _ h

/-- The unit changed holds the new value, which is not its reset value. -/
theorem State.modHost_same (n : Nat) (f : HostPort → HostPort) (s : State) (h : f (s.host n) ≠ HostPort.reset) :
    (s.modHost n f).host n = f (s.host n) :=
  SMap.get_set_value _ _ _ _ h

/-- The unit changed holds the new value, in a map of canonical form. -/
theorem State.modHost_same_wf (n : Nat) (f : HostPort → HostPort) (s : State) (h : SMap.wf HostPort.reset s.hosts = true) :
    (s.modHost n f).host n = f (s.host n) :=
  SMap.get_set_same _ _ _ _ none h

/-- Changing one unit leaves the others. -/
theorem State.modHbm_other (n i : Nat) (f : Hbm → Hbm) (s : State) (h : n ≠ i) : (s.modHbm n f).hbm i = s.hbm i :=
  SMap.get_set_other _ _ _ _ _ h

/-- The unit changed holds the new value, which is not its reset value. -/
theorem State.modHbm_same (n : Nat) (f : Hbm → Hbm) (s : State) (h : f (s.hbm n) ≠ Hbm.reset) :
    (s.modHbm n f).hbm n = f (s.hbm n) :=
  SMap.get_set_value _ _ _ _ h

/-- The unit changed holds the new value, in a map of canonical form. -/
theorem State.modHbm_same_wf (n : Nat) (f : Hbm → Hbm) (s : State) (h : SMap.wf Hbm.reset s.hbms = true) :
    (s.modHbm n f).hbm n = f (s.hbm n) :=
  SMap.get_set_same _ _ _ _ none h

/-- Changing one unit leaves the others. -/
theorem State.modXp_other (n i : Nat) (f : Xp → Xp) (s : State) (h : n ≠ i) : (s.modXp n f).xp i = s.xp i :=
  SMap.get_set_other _ _ _ _ _ h

/-- The unit changed holds the new value, which is not its reset value. -/
theorem State.modXp_same (n : Nat) (f : Xp → Xp) (s : State) (h : f (s.xp n) ≠ Xp.reset) :
    (s.modXp n f).xp n = f (s.xp n) :=
  SMap.get_set_value _ _ _ _ h

/-- The unit changed holds the new value, in a map of canonical form. -/
theorem State.modXp_same_wf (n : Nat) (f : Xp → Xp) (s : State) (h : SMap.wf Xp.reset s.xps = true) :
    (s.modXp n f).xp n = f (s.xp n) :=
  SMap.get_set_same _ _ _ _ none h

/-! ### Cores and transfer engines -/

theorem State.modCore_cluster_other (c k i : Nat) (f : Core → Core) (s : State) (h : c ≠ i) :
    (s.modCore c k f).cluster i = s.cluster i := State.modCluster_other c i _ s h

theorem State.modTe_cluster_other (c t i : Nat) (f : Te → Te) (s : State) (h : c ≠ i) :
    (s.modTe c t f).cluster i = s.cluster i := State.modCluster_other c i _ s h

theorem Cluster.modCore_other (k i : Nat) (f : Core → Core) (cl : Cluster) (h : k ≠ i) :
    (cl.modCore k f).core i = cl.core i := SMap.get_set_other _ _ _ _ _ h

theorem Cluster.modTe_other (t i : Nat) (f : Te → Te) (cl : Cluster) (h : t ≠ i) :
    (cl.modTe t f).te i = cl.te i := SMap.get_set_other _ _ _ _ _ h

theorem Cluster.modCore_same (k : Nat) (f : Core → Core) (cl : Cluster) (h : f (cl.core k) ≠ Core.reset) :
    (cl.modCore k f).core k = f (cl.core k) := SMap.get_set_value _ _ _ _ h

/-! ### Repeated effects -/

/-- What each effect of a list keeps, the whole list keeps. -/
theorem forEach_keeps {α β : Type} (p : State → β) (f : α → State → State) (l : List α) (s : State)
    (h : ∀ a s, p (f a s) = p s) : p (forEach l f s) = p s := by
  unfold forEach
  induction l generalizing s with
  | nil => rfl
  | cons a l ih => rw [List.foldl_cons, ih, h]

/-- An invariant that each effect of a list keeps, the whole list keeps. -/
theorem forEach_inv {α : Type} (p : State → Prop) (f : α → State → State) (l : List α) (s : State)
    (h : ∀ a s, p s → p (f a s)) (hs : p s) : p (forEach l f s) := by
  unfold forEach
  induction l generalizing s with
  | nil => exact hs
  | cons a l ih => exact ih _ (h a s hs)

theorem onlyIf_keeps {β : Type} (p : State → β) (b : Bool) (f : State → State) (s : State)
    (h : ∀ s, p (f s) = p s) : p (onlyIf b f s) = p s := by
  unfold onlyIf
  split
  · exact h s
  · rfl

end Sys2Proof.Machine
end

