-- ==== Sys2Proof/Laws/Cores.lean ====
section
/-! SUPPORT. Laws of the cores: reading a core after an update, and what the counters, the rings and the settling of
control commands leave alone. -/
namespace Sys2Proof.Machine

/-! ### Counting changes the counters only -/

theorem count_eq (k : CKind) (u i n : Nat) (s : State) : ∃ c, count k u i n s = { s with cnt := c } := by
  unfold count
  dsimp only
  split
  · exact ⟨s.cnt, rfl⟩
  · split
    · exact ⟨_, rfl⟩
    · split
      · exact ⟨s.cnt, rfl⟩
      · exact ⟨_, rfl⟩

theorem countCore_eq (c k i n : Nat) (s : State) : ∃ x, countCore c k i n s = { s with cnt := x } := count_eq ..
theorem countEpb_eq (e i n : Nat) (s : State) : ∃ x, countEpb e i n s = { s with cnt := x } := count_eq ..
theorem countHbm_eq (n i v : Nat) (s : State) : ∃ x, countHbm n i v s = { s with cnt := x } := count_eq ..

@[simp] theorem countCore_clusters (c k i n : Nat) (s : State) : (countCore c k i n s).clusters = s.clusters := by
  obtain ⟨x, h⟩ := countCore_eq c k i n s
  rw [h]

@[simp] theorem countCore_core (c k i n a b : Nat) (s : State) : (countCore c k i n s).core a b = s.core a b := by
  obtain ⟨x, h⟩ := countCore_eq c k i n s
  rw [h]
  rfl

/-- A held bundle marks its core held, and counts. -/
theorem hold_core (c k cause a b : Nat) (s : State) :
    (hold c k cause s).core a b = (s.modCore c k fun x => { x with run := .held }).core a b := by simp [hold]

@[simp] theorem countCore_cluster (c k i n a : Nat) (s : State) : (countCore c k i n s).cluster a = s.cluster a := by
  obtain ⟨x, h⟩ := countCore_eq c k i n s
  rw [h]
  rfl

theorem forEach_clusters {α : Type} (l : List α) (f : α → State → State) (s : State)
    (h : ∀ a s, (f a s).clusters = s.clusters) : (forEach l f s).clusters = s.clusters := by
  unfold forEach
  induction l generalizing s with
  | nil => rfl
  | cons a l ih => rw [List.foldl_cons, ih, h]

/-! ### Reading a core after an update -/

theorem modCluster_cluster_same (c : Nat) (f : Cluster → Cluster) (s : State)
    (h : SMap.wf Cluster.reset s.clusters = true) : (s.modCluster c f).cluster c = f (s.cluster c) := by
  simp only [State.cluster, State.modCluster, SMap.upd]
  exact SMap.get_set_same _ _ _ _ none h

theorem modCluster_cluster_other (c c' : Nat) (f : Cluster → Cluster) (s : State) (h : c' ≠ c) :
    (s.modCluster c f).cluster c' = s.cluster c' := by
  simp only [State.cluster, State.modCluster, SMap.upd]
  exact SMap.get_set_other _ _ _ _ _ (Ne.symm h)

theorem modCore_core_same (c k : Nat) (f : Core → Core) (s : State) (h : MapsCanonical s) :
    (s.modCore c k f).core c k = f (s.core c k) := by
  simp only [State.core, State.modCore, modCluster_cluster_same c _ s h.clusters, Cluster.modCore, Cluster.core,
    SMap.upd]
  exact SMap.get_set_same _ _ _ _ none (h.cores c)

theorem modCore_core_other (c k c' k' : Nat) (f : Core → Core) (s : State) (h : MapsCanonical s)
    (hne : c' ≠ c ∨ k' ≠ k) : (s.modCore c k f).core c' k' = s.core c' k' := by
  by_cases hc : c' = c
  · subst hc
    have hk : k' ≠ k := by
      rcases hne with h | h
      · exact absurd rfl h
      · exact h
    simp only [State.core, State.modCore, modCluster_cluster_same c' _ s h.clusters, Cluster.modCore, Cluster.core,
      SMap.upd]
    exact SMap.get_set_other _ _ _ _ _ (Ne.symm hk)
  · simp only [State.core, State.modCore, modCluster_cluster_other c c' _ s hc]

/-! ### What the rings and their completions leave alone -/

@[simp] theorem modRq_clusters (fq : Bool) (x : Nat) (f : Rq → Rq) (s : State) :
    (s.modRq fq x f).clusters = s.clusters := rfl

@[simp] theorem msixSignal_clusters (x v : Nat) (s : State) : (msixSignal x v s).clusters = s.clusters := by
  unfold msixSignal
  dsimp only
  split <;> rfl

@[simp] theorem ringAsk_clusters (x : Nat) (o : RingOut) (s : State) : (ringAsk x o s).clusters = s.clusters := by
  unfold ringAsk askRing
  repeat' split
  all_goals rfl

@[simp] theorem ringSend_clusters (x : Nat) (o : RingOut) (s : State) : (ringSend x o s).clusters = s.clusters := by
  unfold ringSend
  split
  · rfl
  · simp

@[simp] theorem ringPush_clusters (x : Nat) (o : RingOut) (s : State) : (ringPush x o s).clusters = s.clusters := by
  unfold ringPush
  split
  · simp
  · dsimp only
    split <;> simp

@[simp] theorem recordLost_clusters (fq : Bool) (x : Nat) (s : State) :
    (recordLost fq x s).clusters = s.clusters := rfl

@[simp] theorem ringRecord_clusters (fq : Bool) (x : Nat) (r : List Byte) (s : State) :
    (ringRecord fq x r s).clusters = s.clusters := by
  unfold ringRecord
  dsimp only
  split
  · rfl
  · split <;> simp

@[simp] theorem faultRecord_clusters (x : Nat) (r : List Byte) (s : State) :
    (faultRecord x r s).clusters = s.clusters := by
  unfold faultRecord
  split
  · simp
  · split
    · simp
    · split
      · rfl
      · simp

@[simp] theorem eventRecord_clusters (x : Nat) (r : List Byte) (s : State) :
    (eventRecord x r s).clusters = s.clusters := by
  unfold eventRecord
  split <;> simp

@[simp] theorem modCq_clusters (x r : Nat) (f : Cq → Cq) (s : State) : (s.modCq x r f).clusters = s.clusters := rfl
@[simp] theorem modSq_clusters (x r : Nat) (f : Sq → Sq) (s : State) : (s.modSq x r f).clusters = s.clusters := rfl

@[simp] theorem cqSignal_clusters (x r : Nat) (s : State) : (cqSignal x r s).clusters = s.clusters := by
  unfold cqSignal
  repeat' split
  all_goals first | rfl | simp

@[simp] theorem cqWrite_clusters (x r : Nat) (pasid : Option Nat) (e : List Byte) (irq : Bool) (s : State) :
    (cqWrite x r pasid e irq s).clusters = s.clusters := by
  simp [cqWrite, apply_ite State.clusters]

@[simp] theorem completeRing_clusters (x r cq : Nat) (pasid : Option Nat) (i g : Nat) (e : List Byte) (st v d : Nat)
    (s : State) : (completeRing x r cq pasid i g e st v d s).clusters = s.clusters := by
  unfold completeRing
  dsimp only
  split <;> split <;> simp

@[simp] theorem finishCtl_clusters (x r i st v : Nat) (s : State) : (finishCtl x r i st v s).clusters = s.clusters := by
  unfold finishCtl
  split
  · rfl
  · rw [completeRing_clusters]; rfl

/-- Settling CORE_START and CORE_STOP commands changes no core. -/
@[simp] theorem settleCores_clusters (s : State) : (settleCores s).clusters = s.clusters := by
  unfold settleCores
  apply forEach_clusters
  intro x s
  apply forEach_clusters
  intro q s
  unfold settleCore
  dsimp only
  repeat' split
  all_goals simp

theorem core_of_clusters {s t : State} (h : t.clusters = s.clusters) (c k : Nat) : t.core c k = s.core c k := by
  simp only [State.core, State.cluster, h]

/-- The canonical form of the maps rests on nothing but the maps. -/
theorem MapsCanonical.modCore {s : State} (h : MapsCanonical s) (c k : Nat) (f : Core → Core)
    (hs : ∀ x : Core, SMap.wf 0 x.s = true → SMap.wf 0 (f x).s = true)
    (hp : ∀ x : Core, SMap.wf 0 x.p = true → SMap.wf 0 (f x).p = true)
    (hv : ∀ x : Core, SMap.wf 0 x.v = true → SMap.wf 0 (f x).v = true)
    (ha : ∀ x : Core, SMap.wf [] x.a = true → SMap.wf [] (f x).a = true)
    (hw : ∀ x : Core, SMap.wf [] x.w = true → SMap.wf [] (f x).w = true) : MapsCanonical (s.modCore c k f) where
  ports := h.ports
  epbs := h.epbs
  clusters := SMap.set_wfFrom _ _ _ _ none (by simp) h.clusters
  hosts := h.hosts
  hbms := h.hbms
  xps := h.xps
  shapers := h.shapers
  policers := h.policers
  samples := h.samples
  mailboxes := h.mailboxes
  cores := by
    intro c'
    by_cases e : c' = c
    · subst e
      simp only [State.modCore, modCluster_cluster_same c' _ s h.clusters, Cluster.modCore]
      exact SMap.set_wfFrom _ _ _ _ none (by simp) (h.cores c')
    · simp only [State.modCore, modCluster_cluster_other c c' _ s e, h.cores c']
  tes := by
    intro c'
    by_cases e : c' = c
    · subst e
      simp only [State.modCore, modCluster_cluster_same c' _ s h.clusters, Cluster.modCore, h.tes c']
    · simp only [State.modCore, modCluster_cluster_other c c' _ s e, h.tes c']
  barriers := by
    intro c'
    by_cases e : c' = c
    · subst e
      simp only [State.modCore, modCluster_cluster_same c' _ s h.clusters, Cluster.modCore, h.barriers c']
    · simp only [State.modCore, modCluster_cluster_other c c' _ s e, h.barriers c']
  scalars := by
    intro c' k'
    by_cases e : c' = c ∧ k' = k
    · obtain ⟨rfl, rfl⟩ := e
      rw [modCore_core_same _ _ _ _ h]
      exact hs _ (h.scalars _ _)
    · rw [modCore_core_other c k c' k' f s h (by omega)]
      exact h.scalars _ _
  predicates := by
    intro c' k'
    by_cases e : c' = c ∧ k' = k
    · obtain ⟨rfl, rfl⟩ := e
      rw [modCore_core_same _ _ _ _ h]
      exact hp _ (h.predicates _ _)
    · rw [modCore_core_other c k c' k' f s h (by omega)]
      exact h.predicates _ _
  lanes := by
    intro c' k'
    by_cases e : c' = c ∧ k' = k
    · obtain ⟨rfl, rfl⟩ := e
      rw [modCore_core_same _ _ _ _ h]
      exact hv _ (h.lanes _ _)
    · rw [modCore_core_other c k c' k' f s h (by omega)]
      exact h.lanes _ _
  tiles := by
    intro c' k'
    by_cases e : c' = c ∧ k' = k
    · obtain ⟨rfl, rfl⟩ := e
      rw [modCore_core_same _ _ _ _ h]
      exact ha _ (h.tiles _ _)
    · rw [modCore_core_other c k c' k' f s h (by omega)]
      exact h.tiles _ _
  wides := by
    intro c' k'
    by_cases e : c' = c ∧ k' = k
    · obtain ⟨rfl, rfl⟩ := e
      rw [modCore_core_same _ _ _ _ h]
      exact hw _ (h.wides _ _)
    · rw [modCore_core_other c k c' k' f s h (by omega)]
      exact h.wides _ _
  lens := h.lens
  rings := h.rings

/-- A change outside the maps keeps their canonical form. -/
theorem MapsCanonical.counted {s : State} (h : MapsCanonical s) (c : Counters) : MapsCanonical { s with cnt := c } :=
  ⟨h.ports, h.epbs, h.clusters, h.hosts, h.hbms, h.xps, h.shapers, h.policers, h.samples, h.mailboxes, h.cores, h.tes,
   h.barriers, h.scalars, h.predicates, h.lanes, h.tiles, h.wides, h.lens, h.rings⟩

end Sys2Proof.Machine
end

