-- ==== Sys2Proof/Laws/Regs.lean ====
section
/-! SUPPORT. Laws of register writes: what a write through an open path comes to, and which register each command's address
names. -/
namespace Sys2Proof.Machine

/-- A path that is open and may write a ready register puts the value there. -/
theorem regWrite_rw (p : Path) (a v : Nat) (s : State) (r : Reg) (ho : pathOpen s p = true) (ha : regAt a = some r)
    (hw : regAccess p r = .rw) (hr : regReady s r = true) : regWrite p a v s = regPut p (stageKey p a) r v s := by
  simp [regWrite, quadWrite, ho, ha, hw, hr]

/-- A write of a register its path may only read is at most counted as refused, where the register's unit is ready. -/
theorem regWrite_readOnly (p : Path) (a v : Nat) (s : State) (r : Reg) (ho : pathOpen s p = true) (ha : regAt a = some r)
    (hw : regAccess p r = .readOnly) (hr : regReady s r = true) : regWrite p a v s = noteBlocked p r s := by
  simp [regWrite, quadWrite, ho, ha, hw, hr]

/-- Only steward's writes are counted as refused. -/
theorem noteBlocked_other (p : Path) (r : Reg) (s : State) (h : p ≠ .steward) : noteBlocked p r s = s := by
  unfold noteBlocked
  rw [if_neg]
  simp [h]

/-- A write through a path that is not open leaves at most a count of a manager that is not on the list. -/
theorem regWrite_closed (p : Path) (a v : Nat) (s : State) (ho : pathOpen s p = false) : regWrite p a v s = pathNote p s := by
  simp [regWrite, ho]

theorem regAt_mgrList (n : Fin 8) : regAt (0x200 + 8 * n) = some (.mgrList n) := by revert n; decide
theorem regAt_dasRoot (n : Fin 16) : regAt (0x101000 + 8 * n) = some (.dasRoot n) := by revert n; decide
theorem regAt_bias (n : Fin 4) : regAt (0x400100 + 8 * n) = some (.bias n) := by revert n; decide
theorem regAt_gmin (n : Fin 8) : regAt (0x800100 + 8 * n) = some (.gmin n) := by revert n; decide
theorem regAt_sillConfig (r : Fin 3) :
    regAt (0x808 + 8 * r) = some (if r = 0 then .sillCpt else if r = 1 then .sillAux else .sillPool) := by
  revert r; decide

theorem regAt_sq (r : Fin 256) : regAt (0x110000 + 0x20 * r) = some (.sq r 0) := by revert r; decide +kernel
theorem regAt_cq (r : Fin 256) : regAt (0x120000 + 0x20 * r) = some (.cq r 0) := by revert r; decide +kernel

theorem regAt_route (ver : Fin 2) (i : Fin 256) : regAt (0x810000 + 0x800 * ver + 8 * i) = some (.route ver i) := by
  revert ver i; decide +kernel

theorem regAt_mcast (ver : Fin 2) (g : Fin 4096) (q : Fin 2) :
    regAt (0x820000 + 0x10000 * ver + 16 * g + 8 * q) = some (.mcast ver g q) := by
  have h1 := ver.isLt
  have h2 := g.isLt
  have h3 := q.isLt
  have e : 0x820000 + 0x10000 * ver.val + 16 * g.val + 8 * q.val - 0x800000 =
      0x20000 + 0x10000 * ver.val + 16 * g.val + 8 * q.val := by omega
  unfold regAt
  rw [if_neg (by omega), if_neg (by omega), if_neg (by omega), if_pos (by omega), e]
  unfold regSwitch
  have a1 : (0x20000 + 0x10000 * ver.val + 16 * g.val + 8 * q.val - 0x20000) / 0x10000 = ver.val := by omega
  have a2 : (0x20000 + 0x10000 * ver.val + 16 * g.val + 8 * q.val - 0x20000) % 0x10000 / 16 = g.val := by omega
  have a3 : (0x20000 + 0x10000 * ver.val + 16 * g.val + 8 * q.val) % 16 / 8 = q.val := by omega
  rw [if_neg (by omega), if_neg (by omega), if_neg (by omega), if_pos (by omega), a1, a2, a3]

theorem regAt_shape (o : Fin 104) (vc : Fin 6) (q : Fin 2) :
    regAt (0x850000 + 0x80 * o + 0x10 * vc + 8 * q) = some (.shape o (vc + 1) q) := by
  revert o vc q; decide +kernel

theorem regAt_pol (i : Fin 104) (c q : Fin 2) :
    regAt (0x840000 + 0x20 * i + 0x10 * c + 8 * q) = some (.pol i c q) := by
  revert i c q; decide +kernel

theorem regAt_portCtrl (n : Fin 88) : regAt (portAddr n) = some (.portCtrl n) := by revert n; decide +kernel
theorem regAt_fence (n : Fin 88) : regAt (portAddr n + 0x100) = some (.fence n) := by revert n; decide +kernel
theorem regAt_transit (n : Fin 88) : regAt (portAddr n + 0x108) = some (.transit n) := by revert n; decide +kernel
theorem regAt_portTest (n : Fin 88) : regAt (portAddr n + 0x300) = some (.portTest n) := by revert n; decide +kernel

theorem regAt_lens (e : Fin 16) (w : Fin 4096) (q : Fin 4) :
    regAt (0x1800000 + 0x40000 * e + 0x20 * w + 8 * q) = some (.lens e w q) := by
  have h1 := e.isLt
  have h2 := w.isLt
  have h3 := q.isLt
  have a1 : (0x1800000 + 0x40000 * e.val + 0x20 * w.val + 8 * q.val - 0x1800000) / 0x40000 = e.val := by omega
  have a2 : (0x1800000 + 0x40000 * e.val + 0x20 * w.val + 8 * q.val) % 0x40000 = 0x20 * w.val + 8 * q.val := by omega
  unfold regAt
  rw [if_neg (by omega), if_neg (by omega), if_neg (by omega), if_neg (by omega), if_neg (by omega), if_neg (by omega),
    if_pos (by omega), a1, a2]
  unfold regEpb
  have a3 : (0x20 * w.val + 8 * q.val) / 32 = w.val := by omega
  have a4 : (0x20 * w.val + 8 * q.val) % 32 / 8 = q.val := by omega
  rw [if_pos (by omega), a3, a4]

theorem regAt_xpConfig (n : Fin 4) : regAt (0x2600008 + 0x10000 * n) = some (.xpConfig n) := by revert n; decide

end Sys2Proof.Machine
end

