-- ==== Sys2Proof/WellFormed.lean ====
section
/-! DEFINITION. Which commands are well formed: the operands whose lengths or ranges the manual fixes and the types do
not. The machine answers an ill-formed one too, by fitting the operand. -/
namespace Sys2Proof

/-- A verified image comes with a SHAKE256 digest of 64 bytes and a security version of 32 bits (R428, R433). -/
def imageWf (i : Machine.Image) : Bool := i.digest.length == 64 && decide (i.svn < 2 ^ 32)

/-- An image that verifies, or none. -/
def optImageWf : Option Machine.Image → Bool
  | none => true
  | some i => imageWf i

/-- A memory-space access of `n` bytes at `a` inside an aperture of `2 ^ w` bytes (R353, R381, R478). -/
def accessWf (a n w : Nat) : Bool := decide (0 < n) && decide (a + n ≤ 2 ^ w)

/-- A translation or invalidation of `2 ^ log2` bytes: at least a page of 4,096 bytes, aligned to its own size; the
page is given by bits [63:12] of its address (R53, R55). -/
def pageWf (page log2 : Nat) : Bool :=
  decide (12 ≤ log2) && decide (log2 ≤ 63) && page % 2 ^ (log2 - 12) == 0

/-- A link frame carries 240 data bytes (R338). -/
def Frame.wf (f : Frame) : Bool := f.data.length == 240

/-- An ID frame names a position of the grid, a port offset, a partition or none, and eight reserves (R336). -/
def IdFrame.wf (f : IdFrame) : Bool :=
  decide (f.position < 256) && decide (f.portOff < 4) && f.gmin.length == 8
    && (match f.part with | none => true | some p => decide (p < 64))

/-- An MCTP message is reassembled up to 1,024 bytes (R456, R464). -/
def messageWf (m : List Byte) : Bool := decide (0 < m.length) && decide (m.length ≤ 1024)

/-- Words of a scrubbed array (R142, R149): eight bytes each in the scratchpad and the pool, half a bundle in the
instruction memory. -/
def SramBank.words : SramBank → Nat
  | .spm _ _ => 262144
  | .imem _ _ => 32768
  | .pool _ => 2097152
  | .regs _ _ => 1

/-- Is the command well formed? -/
def Instr.wf : Instr → Bool
  | .rstNRise .. | .rstNPulse .. | .vddAonBrownout .. | .refclkCoreLoss .. | .laneReferenceLoss .. => true
  | .sealFirmwareVerified p q => optImageWf p && optImageWf q
  | .bistComplete .. | .hbmTrainingComplete .. | .identityDerived .. => true
  | .stewardReleased i => optImageWf i
  | .xpEnumeration .. | .noiseHealthFail .. | .positionWrite .. | .slotWrite .. | .partitionWrite ..
  | .mgrListWrite .. | .dasRootWrite .. | .lensDescriptorWrite .. | .xpConfigWrite .. | .sillCtrlWrite ..
  | .sillConfigWrite .. | .routeWrite .. | .mcastWrite .. | .epochWrite .. | .epochDrainExpiry ..
  | .fenceWrite .. | .transitWrite .. | .transitCfgWrite .. | .gminWrite .. | .shapeWrite ..
  | .shaperCommit .. | .polWrite .. | .policerCommit .. | .mirrorCfgWrite .. => true
  | .registerWrite _ a d => accessWf a.toNat d.length 26
  | .rcRead _ a n => accessWf a.toNat n 26
  | .reqConfigured .. | .reqAssigned .. | .reqRunning .. | .reqDraining .. | .reqFenced .. | .reqClearing ..
  | .tier0FillComplete .. | .tier0VerifyComplete .. | .expansionClearComplete .. | .clearLimitExpiry ..
  | .clearCertify .. | .getIdentity .. => true
  | .getReport _ n => n.length == 32
  | .mailboxRequestComplete .. | .setConfidential .. | .clearRetry .. | .watchdogService ..
  | .watchdogExpiry .. | .restart .. => true
  | .mpRestartComplete i => optImageWf i
  | .replayOrder .. | .tailDoorbell .. | .headDoorbell .. | .ringEnable .. | .ringDisable .. => true
  | .commandTake _ _ e => e.length == 64
  | .nop .. | .copy .. | .verify .. | .put .. | .get .. | .mput .. | .rput .. | .oput .. | .lseput ..
  | .atomic .. | .sillPrefetch .. | .sillCommit .. | .windowUpdate .. | .windowUpdateSwitchPoint ..
  | .windowUpdateDrained .. | .lensInvalidate .. | .lensInvalidateDrained .. | .dvaInvalidate ..
  | .dvaInvalidateDrained .. | .streamReset .. | .programLoad .. | .coreStart .. | .coreStop ..
  | .teResume .. | .sillAttach .. | .sillDetach .. | .sillPin .. | .sillUnpin .. | .sillMove ..
  | .sillRebuild .. | .teCommandStart .. | .armedCommandStart .. | .translationWalkComplete .. => true
  | .translationCompletion _ _ p l _ _ => pageWf p.toNat l
  | .pageRequestGroupResponse .. | .priWaitExpiry .. => true
  | .atsInvalidateRequest _ _ _ p l => pageWf p.toNat l
  | .invalidateCompletion .. | .teCommandCompletion .. | .load .. | .store .. | .fetchOp .. | .cswap ..
  | .reduce .. | .wreduce .. | .oreduce .. | .lse .. | .accordRootWritten .. | .accordTimeout ..
  | .mcastStore .. | .mgmtRead .. | .mgmtWrite .. | .mgmtMsg .. | .loadResp .. | .storeAck .. | .fetchResp ..
  | .cswapResp .. | .reduceAck .. | .wreduceAck .. | .oreduceAck .. | .lseAck .. | .mcastAck ..
  | .carryAck .. | .mgmtReadResp .. | .mgmtWriteAck .. | .mgmtMsgAck .. | .holdFullBackoffExpiry ..
  | .remoteOperationTimeout .. | .tidQuarantineExpiry .. | .flagHoldTimeout .. | .collisionQueueDequeue ..
  | .pageInComplete .. | .pageWaitExpiry .. | .sillageMoveStart .. | .eviction .. | .evictionComplete ..
  | .demotion .. | .commitComplete .. | .rebuildComplete .. | .agePeriod .. | .wearRotation ..
  | .hbmRefresh .. | .patrolScrub .. => true
  | .scrubDeferralExpiry b w _ => decide (w < b.words)
  | .xpLinkDown .. | .xpLinkUp .. | .xpRetrainWaitExpiry .. | .packetArrival .. | .outputGrant ..
  | .ageDrop .. | .gatherRecordTimeout .. | .gatherRecordFreed .. | .portDown .. | .creditWatchdogExpiry ..
  | .frameAckTimeout .. => true
  | .auditCellCheck (.both _ _ i) => decide (i < 262144)
  | .auditCellCheck _ => true
  | .queueSample .. | .congestionMapPeriod .. | .trainingFrame .. | .tapHandshakeTimeout ..
  | .trainingDeadline .. => true
  | .idFrame _ f => f.wf
  | .fenceAdvertisement .. | .autoRetrain .. => true
  | .data _ _ f => f.wf
  | .dataT _ _ f => f.wf
  | .idle _ _ f => f.wf
  | .ctrl _ _ f => f.wf
  | .recal _ _ f => f.wf
  | .restore _ _ f => f.wf
  | .degrade _ _ f => f.wf
  | .replayTimer .. | .laneFailure .. | .degradeRepeat .. | .laneRetrainComplete .. | .recalibrationStart ..
  | .retrain .. | .portEn .. | .loop .. | .testPattern .. | .coalesceTimer .. | .take .. | .autoTakeover ..
  | .hostLinkDown .. | .hostLinkUp .. | .perstN .. | .functionLevelReset .. => true
  | .memoryApertureRead _ o n => accessWf o.toNat n 36
  | .memoryApertureWrite _ o d => accessWf o.toNat d.length 36
  | .role .. | .capHostWrite .. | .capRackWrite .. | .warnWrite .. | .orphanWrite .. | .heartbeat ..
  | .orphan .. => true
  | .powerEstimate w _ _ => decide (w < 4096)
  | .workingLimitUpdate w _ => decide (w < 4096)
  | .estimateCalibration w => decide (w < 4096)
  | .pmbusReadFailure .. | .operatingPointChange .. | .avsbusTimeout .. | .capUnmet .. | .pwrWarnNAssert ..
  | .pwrWarnNRelease .. | .throttle .. | .swSlow .. | .hbmHot .. | .thermtrip .. | .domainIdleEntry ..
  | .domainWake .. | .biasWrite .. | .setdasa .. | .entdaa .. | .rstdaa .. | .getpid .. | .getbcr ..
  | .getdcr .. | .getstatus .. | .enec .. | .disec .. => true
  | .mctpControl m => messageWf m
  | .read .. => true
  | .write _ _ n _ d => d.length == 8 * n.toNat
  | .imageBegin .. => true
  | .imageData _ _ _ d => !d.isEmpty
  | .imageEnd _ _ i => optImageWf i
  | .gettid .. | .settid .. | .getpldmversion .. | .getpldmtypes .. | .getpldmcommands .. | .getpdr ..
  | .getsensorreading .. | .getstatesensorreadings .. | .sensorRefresh .. => true
  | .getMeasurements n => n.length == 32
  | .chainWrite .. | .countersClearCore .. | .countersClearEpb .. | .countersClearHbm .. | .snap ..
  | .snapshotIslandCopy .. | .snapshotComplete .. | .intAlu .. | .mul .. | .mulhu .. | .mulh .. | .sel ..
  | .aluImmediate .. | .mov16 .. | .mov16Z .. | .ldSpm .. | .ldPool .. | .stSpm .. | .stPool .. | .fpArith ..
  | .fpCompare .. | .fcvtF32I64 .. | .fcvtI64F32 .. | .pset .. | .pget .. | .predLogic .. | .pcnt ..
  | .branch .. | .bpany .. | .bpnone .. | .j .. | .jal .. | .jr .. | .trap .. | .csRd .. | .csWr ..
  | .wait .. | .halt .. | .stalledBundleIssue .. | .vintAlu .. | .vintMinmax .. | .vcmpInt .. | .vsel ..
  | .vfpArith .. | .vminmaxF32 .. | .vcmpF32 .. | .vdivVsqrt .. | .vexp .. | .vexpd .. | .vcvtInt ..
  | .vcvtBf16 .. | .vcvtF16 .. | .vcvtWiden .. | .vred .. | .vtmax .. | .vtexp .. | .vtsum .. | .vtget ..
  | .vtput .. | .vld .. | .vldBc .. | .vst .. | .vmovS .. | .vext .. | .mma .. | .mscale .. | .mst ..
  | .wst .. | .wld .. | .wcvt .. | .matrixOperationComplete .. | .teIssue .. | .teArm .. | .teCnt ..
  | .teErr .. | .teWait .. | .teXissue .. | .rel .. | .acq .. | .barCfg .. | .barArrive .. | .barWait ..
  | .barSync .. | .fwait .. | .fwaitConditionMet .. | .fwaitLimitExpiry .. | .wakeCore .. | .watch .. => true
  | .switchReady w => decide (w < 4096)
  | .hostPortReady .. | .refclkCoreReturn .. | .cdrLock .. | .alignmentLock .. | .onDieClearComplete ..
  | .parkedMoveComplete .. | .streamCarryRequest .. | .badFrame .. | .msiXUnmask .. | .jtagInstruction ..
  | .noiseHealthPass .. => true
  | .spdmNegotiation m => messageWf m

end Sys2Proof
end

