-- ==== Sys2Proof/Tests/Slice0.lean ====
section
/-! SUPPORT. Tests of the model on small states: an ill-formed term for each check of WellFormed, single steps against the
spec's own examples, and for every statement with hypotheses a state and operands that meet them, clause by clause. -/
namespace Sys2Proof.Tests
open Sys2Proof Sys2Proof.Machine

/- The theorems here are evaluated one after another: many waiting at once fill the memory with their stacks. -/
set_option Elab.async false

/-! ### Small states -/

/-- A host port whose link is up. -/
def port : HostPort := { HostPort.reset with ready := true, perst := false, linkUp := true, rate := 1 }

/-- A package that has powered up, holds position 41 and slot 90, and is still UNCONFIGURED. -/
def up : State :=
  { State.reset with
    boot := { Boot.reset with
      out := true, rstN := true, bistDone := true, code := 1, enabled := 0xFFFF, pass := 2 ^ 128 - 1, epbReady := 0xFFFF,
      counters := true, state := 3 }
    glob := { Global.reset with position := 41, positionValid := true, slot := 90, slotValid := true }
    hosts := [(0, { port with main := true }), (1, port)]
    sw := { Switch.reset with ready := true }
    hbms := (List.range 12).map fun n => (n, { Hbm.reset with ready := true })
    power := { Power.reset with running := true, limit := 100, p10 := 60 }
    sealCore := { Seal.reset with ready := true, ident := true }
    mgmt := { Mgmt.reset with up := true } }

/-- The package in a state of R409, with partition 5. -/
def inState (g : PkgState) : State := { up with glob := { up.glob with state := g, part := some 5 } }

/-- A package with one register file changed. -/
def withHost (f : HostPort → HostPort) : State := up.modHost 0 f
def withPort (f : Port → Port) : State := up.modPort 0 f
def withCore (f : Core → Core) : State := up.modCore 0 0 f

/-- Waiting commands of the sort that keep a CLEARING back: a window update taken from ring 4 of HP0. -/
def inUpdate : State := (inState .fenced).modHost 0 fun h => { h with
  ctl := [{ ring := 4, index := 0, gen := 0, entry := leBytes 64 0x41, verdict := none, phase := .queued, trans := [],
            reserved := false, waits := [], cmds := [], cq := 1, das := 0, pasid := none, taken := 0 }] }

/-- The next state of an outcome that goes on. -/
def after (o : Host.Outcome State Fault Refusal) : State :=
  match o with
  | .next t => t
  | .fault f => nomatch f
  | .refused _ => State.reset

/-- Does the outcome go on, in a state of which this holds? -/
def goes (o : Host.Outcome State Fault Refusal) (p : State → Bool) : Bool :=
  match o with
  | .next t => p t
  | .fault f => nomatch f
  | .refused _ => false

/-! ### WellFormed: an ill-formed term for each check, and a well-formed one beside it -/

def image : Image := { digest := zeros 64, svn := 1 }
def shortImage : Image := { digest := zeros 63, svn := 1 }
def frame : Frame :=
  { seq := 1, ack := 0, pstart := 31, pad := 30, cvc := 0, ccnt := 0, replay := 0, rsv := 0, data := zeros 240, crc := 0 }
def ident : IdFrame := { position := 41, portOff := 1, part := some 5, gmin := [17, 24, 24, 24, 24, 24, 24, 17] }

theorem test_wf_image : (Instr.stewardReleased (some image)).wf = true ∧
    (Instr.stewardReleased (some shortImage)).wf = false ∧
    (Instr.mpRestartComplete (some { image with svn := 2 ^ 32 })).wf = false ∧
    (Instr.sealFirmwareVerified (some image) (some shortImage)).wf = false ∧
    (Instr.imageEnd 0 0 (some shortImage)).wf = false := by decide +kernel

theorem test_wf_access : (Instr.registerWrite (.hp 0) 0x3FFFFF8 (zeros 8)).wf = true ∧
    (Instr.registerWrite (.hp 0) 0x3FFFFF8 (zeros 9)).wf = false ∧ (Instr.registerWrite (.hp 0) 0 []).wf = false ∧
    (Instr.rcRead .sideband 0 0).wf = false ∧ (Instr.memoryApertureRead 0 (BitVec.ofNat 36 (2 ^ 36 - 4)) 8).wf = false ∧
    (Instr.memoryApertureWrite 0 0 []).wf = false := by decide +kernel

theorem test_wf_lengths : (Instr.getReport 0 (zeros 32)).wf = true ∧ (Instr.getReport 0 (zeros 31)).wf = false ∧
    (Instr.getMeasurements (zeros 33)).wf = false ∧ (Instr.commandTake 0 0 (zeros 64)).wf = true ∧
    (Instr.commandTake 0 0 (zeros 63)).wf = false ∧ (Instr.write 0 0 2 0 (zeros 16)).wf = true ∧
    (Instr.write 0 0 2 0 (zeros 8)).wf = false ∧ (Instr.imageData 0 0 0 []).wf = false ∧
    (Instr.mctpControl []).wf = false ∧ (Instr.spdmNegotiation (zeros 1025)).wf = false := by decide +kernel

theorem test_wf_pages : (Instr.translationCompletion 0 none 0 12 true true).wf = true ∧
    (Instr.translationCompletion 0 none 0 11 true true).wf = false ∧
    (Instr.atsInvalidateRequest 0 0 none 1 13).wf = false ∧ (Instr.atsInvalidateRequest 0 0 none 0 64).wf = false := by
  decide +kernel

theorem test_wf_ranges : (Instr.scrubDeferralExpiry (.imem 0 0) 32767 .clean).wf = true ∧
    (Instr.scrubDeferralExpiry (.imem 0 0) 32768 .clean).wf = false ∧
    (Instr.scrubDeferralExpiry (.spm 0 0) 262144 .clean).wf = false ∧
    (Instr.scrubDeferralExpiry (.pool 0) 2097152 .clean).wf = false ∧ (Instr.scrubDeferralExpiry (.regs 0 0) 1 .clean).wf = false ∧
    (Instr.auditCellCheck (.both 0 0 262144)).wf = false ∧ (Instr.powerEstimate 4096 0 true).wf = false ∧
    (Instr.workingLimitUpdate 4096 none).wf = false ∧ (Instr.estimateCalibration 4096).wf = false ∧
    (Instr.switchReady 4096).wf = false := by decide +kernel

theorem test_wf_frames : (Instr.data 0 [] frame).wf = true ∧ (Instr.data 0 [] { frame with data := zeros 239 }).wf = false ∧
    (Instr.degrade 0 [] { frame with data := zeros 241 }).wf = false ∧ (Instr.idFrame 0 ident).wf = true ∧
    (Instr.idFrame 0 { ident with position := 256 }).wf = false ∧ (Instr.idFrame 0 { ident with portOff := 4 }).wf = false ∧
    (Instr.idFrame 0 { ident with part := some 64 }).wf = false ∧ (Instr.idFrame 0 { ident with gmin := [17] }).wf = false := by
  decide +kernel

/-! ### Witnesses: what each statement assumes is met, clause by clause -/

theorem witness_StepRunsFrontCommand : { up with pending := [.enec, .disec] }.pending = .enec :: [.disec] := by decide +kernel

theorem witness_StepTakesExactlyOneCommand : State.reset.pending = [] ∧ ({ up with pending := [.enec] }).pending ≠ [] := by
  decide +kernel

theorem witness_GradeKeptByEveryStep : Graded { up with pending := [.thermtrip] } ∧
    goes (step { up with pending := [.thermtrip] }) (fun t => t.boot.bistDone) = true ∧ Graded State.reset ∧
    goes (step { State.reset with pending := [.rstNRise, .bistComplete 1 0] }) (fun t => !t.boot.bistDone) = true := by
  decide +kernel

theorem witness_MemoryStaysCanonical : Canonical { up with dev := [(64, 1), (65, 2)] } ∧
    goes (step { up with dev := [(64, 1), (65, 2)], pending := [.agePeriod] }) (fun t => t.dev.wf) = true :=
  ⟨⟨by decide, by decide, fun _ => rfl⟩, by decide +kernel⟩

theorem witness_ResetCommandsPowerTheDeviceUp :
    State.reset.boot.rstN = false ∧
    (SMap.wf Xp.reset up.xps = true ∧ 10000 ≤ 10000 ∧ up.boot.rstN = true) ∧ 9999 < 10000 ∧
    SMap.wf Xp.reset State.reset.xps = true ∧ (SMap.wf Xp.reset up.xps = true ∧ 1000 ≤ 1000) ∧ 999 < 1000 ∧
    { up with boot := { up.boot with refclk := false } }.boot.refclk = false := by decide +kernel

theorem witness_ThermalTripNoiseAndTestPins :
    (clocksRun up = true ∧ SMap.wf Xp.reset up.xps = true) ∧
    (3 < 4 ∧ ((up.modPort 87 fun p => { p with state := .up }).port 87).state ≠ .disabled ∧ 87 / 22 = 3) ∧
    (0 < 4 ∧ 22 / 22 ≠ 0) ∧ 3 < 4 ∧ up.boot.out = true ∧
    { up with sealCore := { up.sealCore with conf := true } }.sealCore.conf = true ∧ up.sealCore.conf = false := by
  decide +kernel

theorem witness_PowerUpCommandsBringUnitsUp :
    let s := { State.reset with boot := { Boot.reset with out := true, rstN := true } }
    let t := { s with sealCore := { s.sealCore with ready := true } }
    let v := { t with boot := { t.boot with state := 2 } }
    let w := up.modXp 3 fun x => { x with linkUp := true }
    (s.boot.out = true ∧ s.boot.state = 0 ∧ s.sealCore.ready = false) ∧
    (clocksRun s = true ∧ s.boot.bistDone = false) ∧
    (15 < 16 ∧ 7 < 8 ∧ 15 ∉ enabledOf 2 (2 ^ 128 - 1)) ∧
    (clocksRun s = true ∧ (s.hbm 11).ready = false ∧ (s.hbm 11).fail = false) ∧
    (t.sealCore.ready = true ∧ t.sealCore.ident = false ∧ t.sealCore.identFail = false) ∧
    (v.sealCore.ready = true ∧ v.mgmt.up = false ∧ v.mgmt.restarting = false ∧ v.boot.state = 2) ∧
    (w.mgmt.up = true ∧ (w.xp 3).linkUp = true ∧ (w.xp 3).devReady = false) ∧
    (clocksRun s = true ∧ s.sw.ready = false) ∧ (clocksRun up = true ∧ (up.host 1).perst = false) := by decide +kernel

theorem witness_GradeFollowsCodeAndBist :
    let s := { State.reset with boot := { Boot.reset with out := true, rstN := true } }
    let failed := fun pass : BitVec 128 =>
      (filterBelow 16 fun c => !(List.range 8).all fun k => pass.getLsbD (8 * c + k)).length
    (clocksRun s = true ∧ s.boot.bistDone = false) ∧ (((1 : Fin 4) = 1 ∧ 0 = 0) ∨ ((1 : Fin 4) = 2 ∧ 0 = 2)) ∧
    0 < failed (BitVec.ofNat 128 (2 ^ 127)) ∧ failed (BitVec.ofNat 128 (2 ^ 128 - 1)) ≤ 0 ∧
    2 < failed (BitVec.ofNat 128 (2 ^ 104)) ∧ failed (BitVec.ofNat 128 (2 ^ 112 - 1)) ≤ 2 ∧
    ((0 : Fin 4) = 0 ∨ (0 : Fin 4) = 3) ∧ ((3 : Fin 4) = 0 ∨ (3 : Fin 4) = 3) := by decide +kernel

theorem witness_GlobalRegisterWrites :
    let c := inState .configured
    let r := inState .running
    (Path.hp 0 ≠ .steward ∧ Path.sideband ≠ .steward) ∧
    (pathOpen up (.hp 0) = true ∧ up.glob.state = .unconfigured ∧ bits 143 7 0 < 144) ∧
    (pathOpen up .sideband = true ∧ (up.glob.state ≠ .unconfigured ∨ 144 ≤ bits 144 7 0)) ∧
    (pathOpen c (.hp 1) = true ∧ (c.glob.state ≠ .unconfigured ∨ 144 ≤ bits 0 7 0)) ∧
    (pathOpen c .sideband = true ∧ (c.glob.state = .unconfigured ∨ c.glob.state = .configured) ∧ bits 143 7 0 < 144) ∧
    (pathOpen c .sideband = true ∧ Path.sideband.isFm = true ∧ c.glob.state = .configured ∧ bit 0xBF 8 = false) ∧
    (c.glob.state = .configured ∧ bit 0x100 8 = true) ∧
    (pathOpen r .sideband = true ∧ r.glob.state ≠ .configured ∧ bit 0x85 8 = false ∧ r.glob.part = some (bits 0x85 5 0) ∧
      (bit 0x85 7 = false ∨ anyTransit r = false)) ∧
    (r.glob.state ≠ .configured ∧
      (bit 0x104 8 = true ∨ r.glob.part ≠ some (bits 0x104 5 0) ∨ (bit 0x104 7 = true ∧ anyTransit r = true))) ∧
    pathOpen r (.hp 1) = true ∧
    (pathOpen up .sideband = true ∧ (bit 0x18FF 12 = false ∨ bits 0x18FF 11 0 / 16 ≤ 143)) := by decide +kernel

theorem witness_PackageStateFollowsTheTable :
    let c := inState .configured
    let none_ := { c with glob := { c.glob with part := none } }
    let waits := { inState .fenced with glob := { (inState .fenced).glob with clearWait := true } }
    let busy := { inUpdate with glob := { inUpdate.glob with clearWait := true } }
    (up.glob.clearWait = false ∧ c.glob.clearWait = false ∧ (inState .draining).glob.clearWait = false) ∧
    (Path.hp 0 ≠ .steward ∧ c.glob.state ≠ .unconfigured) ∧
    (pathOpen waits .sideband = true ∧ waits.glob.clearWait = true ∧ updatesRun waits = false) ∧
    (pathOpen busy .sideband = true ∧ busy.glob.clearWait = true ∧ updatesRun busy = true) ∧
    (pathOpen up .steward = true ∧ (Path.steward = .steward ∨ up.glob.state ≠ .unconfigured ∨ up.placed = false)) ∧
    (pathOpen up (.hp 0) = true ∧ up.glob.state = .unconfigured ∧ up.placed = true) ∧
    (pathOpen c .sideband = true ∧ Path.sideband.isFm = true ∧ c.glob.state = .configured ∧ c.glob.part.isSome = true) ∧
    (pathOpen (inState .fenced) .sideband = true ∧ (inState .fenced).glob.state = .fenced) ∧
    ((inState .assigned).glob.state = .assigned ∨ (inState .assigned).glob.state = .draining) ∧
    ((inState .draining).glob.state = .assigned ∨ (inState .draining).glob.state = .draining) ∧
    (inState .running).glob.state = .running ∧
    (pathOpen c .sideband = true ∧ (c.glob.state ≠ .unconfigured ∨ c.placed = false)) ∧
    (Path.sideband.isFm = false ∨ (none_.glob.state ≠ .fenced ∧ (none_.glob.state ≠ .configured ∨ none_.glob.part = none))) ∧
    ((Path.hp 0).isFm = false ∨ (c.glob.state ≠ .assigned ∧ c.glob.state ≠ .draining)) ∧
    (Path.sideband.isFm = false ∨ c.glob.state ≠ .running) ∧
    (Path.sideband.isFm = false ∨ (c.glob.state ≠ .assigned ∧ c.glob.state ≠ .running ∧ c.glob.state ≠ .draining)) ∧
    (Path.sideband.isFm = false ∨ c.glob.state ≠ .fenced) := by decide +kernel

theorem witness_ReplayOrderAndSillageRegisters :
    let r := inState .running
    let w := 5 * 2 ^ 26 + 512 * 2 ^ 16
    let on := { up with sill := { up.sill with en := true } }
    (pathOpen r .sideband = true ∧ Path.sideband.isFm = true ∧ (r.glob.state = .running ∨ r.glob.state = .draining) ∧
      r.glob.part = some (bits w 31 26) ∧ 1 ≤ bits w 25 16 ∧ bits w 25 16 ≤ 512) ∧
    ((r.glob.state ≠ .running ∧ r.glob.state ≠ .draining) ∨ r.glob.part ≠ some (bits (w + 2 ^ 16) 31 26) ∨
      bits (w + 2 ^ 16) 25 16 = 0 ∨ 512 < bits (w + 2 ^ 16) 25 16) ∧
    (pathOpen on (.hp 0) = true ∧ on.sill.en = true ∧ Path.hp 0 ≠ .steward) ∧
    (pathOpen up (.hp 0) = true ∧ up.sill.en = false ∧ 10 ≤ bits (22 * 2 ^ 22) 26 22 ∧ bits (22 * 2 ^ 22) 26 22 ≤ 22) ∧
    (bits (20 * 2 ^ 22 + 2 ^ 54) 26 22 ≤ 20 ∧ 1 ≤ bits (20 * 2 ^ 22 + 2 ^ 54) 63 54) ∧
    bits (7 + 7 * 2 ^ 32) 18 0 ≤ bits (7 + 7 * 2 ^ 32) 50 32 ∧
    (up.sill.en = false ∧ bit 0 0 = false) ∧ on.sill.moves = [] ∧
    (up.sill.en = false ∧ goes (exec (.sillCtrlWrite (.hp 0) (BitVec.ofNat 64 (1 + 2 ^ 20 + 2 ^ 41)))
      { up with sill := { up.sill with first := 10, last := 20, cptBase := 8, wearBase := 9 } })
        (fun t => t.sill.en) = true) := by decide +kernel

theorem witness_SwitchTableWrites :
    let route := 1 + 143 * 2 + 2 ^ 10 + 21 * 2 ^ 11
    let mc := fun n => 1 + 5 * 2 + n * 2 ^ 7
    let sb := Path.sideband
    (pathOpen up sb = true ∧ sb.isFm = true ∧ up.sw.ready = true ∧ versionOpen up 1 = true) ∧
    (bit route 0 = true ∧ 143 < 144 ∧ bits route 8 1 < 144 ∧ bits route 17 16 ≠ 3 ∧
      (bit route 10 = true ∧ bits route 15 11 < 22)) ∧ bit 0 0 ≠ true ∧
    (pathOpen (inState .running) sb = true ∧ versionOpen (inState .running) 0 = false) ∧
    (let w := wideOf up 0x820000 (mc 1) (mcastWord (mcastAt up.sw 0 0)) 1;
      bit w 0 = true ∧ bits w 18 7 ≠ 0 ∧ bits w 18 7 ≤ 2304) ∧
    (let w := wideOf up 0x820000 (mc 2304) (mcastWord (mcastAt up.sw 0 0)) 1;
      bit w 0 = true ∧ bits w 18 7 ≠ 0 ∧ bits w 18 7 ≤ 2304) ∧
    (pathOpen up (.hp 0) = true ∧ Path.hp 0 ≠ .steward ∧ up.glob.state = .unconfigured ∧ 17 ≤ bits 17 10 0 ∧ bits 17 10 0 ≤ 1024 ∧
      104 * ((List.range 8).map fun i => if i = 3 then bits 17 10 0 else SMap.get 0 up.sw.gmin i).foldl (· + ·) 0
        ≤ 65536) ∧
    (104 * ((List.range 8).map fun i => if i = 0 then bits 469 10 0 else SMap.get 0 up.sw.gmin i).foldl (· + ·) 0
        ≤ 65536 ∧ bits 469 10 0 ≤ 1024) ∧
    (anyTransit up = false ∧ 16 ≤ bits (16 + 4 * 2 ^ 16) 8 0 ∧ bits (16 + 4 * 2 ^ 16) 8 0 ≤ 256 ∧
      1 ≤ bits (16 + 4 * 2 ^ 16) 22 16 ∧ bits (16 + 4 * 2 ^ 16) 22 16 ≤ bits (16 + 4 * 2 ^ 16) 8 0 / 4) ∧
    (bits (2 + 103 * 2 ^ 20) 16 1 ≠ 0 ∧ bits (2 + 103 * 2 ^ 20) 18 17 ≠ 3 ∧ bits (2 + 103 * 2 ^ 20) 26 20 ≤ 103) := by
  decide +kernel

theorem witness_ShaperAndPolicerWrites :
    let cfg : BucketCfg := { en := true, cr := 4, pr := 8, cb := 17, pb := 34 }
    let s := { up with sw := { up.sw with
      shapers := [(8 * 103 + 6, { Bucket.reset with commit := some cfg, c := 99999999 })]
      policers := [(2 * 103 + 1, { Bucket.reset with commit := some cfg })] } }
    Writable up .sideband (.shape 103 6 0) ∧ Writable up .sideband (.pol 103 1 0) ∧
    SMap.wf Bucket.reset s.sw.shapers = true ∧ (shaperAt s.sw 103 6).commit = some cfg ∧
    SMap.wf Bucket.reset s.sw.policers = true ∧ (policerAt s.sw 103 1).commit = some cfg := by decide +kernel

theorem witness_PortRegisterWrites :
    let sb := Path.sideband
    let r := inState .running
    let sealed_ := { r with glob := { r.glob with sealed_ := true } }
    let forced := up.modPort 87 fun p => { p with force := true }
    let testing := up.modPort 87 fun p => { p with testGen := true }
    let off := up.modPort 87 fun p => { p with en := false }
    (pathOpen r sb = true ∧ sb.isFm = true ∧ r.sw.ready = true) ∧ (pathOpen sealed_ sb = true ∧ sealed_.glob.sealed_ = true) ∧
    (r.glob.sealed_ = false ∧ bits 0 1 0 = 0) ∧ (bits 0x5701 1 0 = 1 ∧ bits 0x5701 14 8 ≤ 87) ∧
    (bits 0x16 1 0 = 2 ∧ r.glob.part = some (bits 0x16 7 2)) ∧
    ((up.port 87).en = true ∧ 1 ≤ (up.port 87).maxVer ∧ (up.port 87).maxVer ≤ 3 ∧ (up.port 87).loop ≤ 3 ∧
      SMap.wf Port.reset up.ports = true) ∧
    ((off.port 87).en = false ∧ 1 ≤ (off.port 87).maxVer ∧ (off.port 87).maxVer ≤ 3 ∧ (off.port 87).loop ≤ 3 ∧
      SMap.wf Port.reset off.ports = true) ∧
    ((forced.port 87).en = true ∧ (forced.port 87).force = true ∧ (forced.port 87).loop ≠ 3 ∧
      1 ≤ (forced.port 87).maxVer ∧ (forced.port 87).maxVer ≤ 3 ∧ SMap.wf Port.reset forced.ports = true) ∧
    ((up.port 87).testGen = false ∧ bit 1 0 = true) ∧ ((testing.port 87).testGen = true ∧ bit 2 0 = false) ∧
    ((testing.port 87).testGen = bit 3 0 ∧ (testing.port 87).testPattern = bits 3 3 2) ∧
    ((testing.port 87).testGen = true ∧ bit 5 0 = true ∧ (testing.port 87).testPattern ≠ bits 5 3 2) ∧
    (up.port 87).testGen = bit 2 0 := by decide +kernel

theorem witness_TailDoorbellAcceptsByDistance :
    let s := withHost fun h => { h with sq := [(255, { Sq.reset with en := true, log2 := 4, head := 2 ^ 32 - 2, tail := 1 })] }
    let q := (s.host 0).sqAt 255
    let dOld := (q.tail + 2 ^ 32 - q.head) % 2 ^ 32
    let d := fun v : Nat => (v + 2 ^ 32 - q.head) % 2 ^ 32
    (hostCan s 0 = true ∧ q.en = true ∧ (leBytes 4 14).length = 4 ∧ leVal (leBytes 4 14) = (14 : BitVec 32).toNat) ∧
    (dOld ≤ d 1 ∧ d 1 ≤ 2 ^ q.log2) ∧ (dOld ≤ d 14 ∧ d 14 ≤ 2 ^ q.log2) ∧
    (d 0 < dOld ∨ 2 ^ q.log2 < d 0) ∧ (d 15 < dOld ∨ 2 ^ q.log2 < d 15) ∧
    SMap.wf HostPort.reset s.hosts = true ∧ SMap.wf Sq.reset (s.host 0).sq = true := by decide +kernel

theorem witness_HeadDoorbellAcceptsUpToTail :
    let s := withHost fun h => { h with
      cq := [(255, { Cq.reset with en := true, head := 2 ^ 32 - 1, tail := 2 })],
      eq := { Rq.reset with en := true, tail := 1 }, fq := { Rq.reset with en := true } }
    let far := fun (head tail : Nat) => (tail + 2 ^ 32 - head) % 2 ^ 32
    let q := (s.host 0).cqAt 255
    (hostCan s 0 = true ∧ q.en = true) ∧ far q.head (2 ^ 32 - 1) ≤ far q.head q.tail ∧ far q.head 2 ≤ far q.head q.tail ∧
    far q.head q.tail < far q.head 3 ∧ far q.head q.tail < far q.head (2 ^ 32 - 2) ∧
    (((s.host 0).rq false).en = true ∧ ((s.host 0).rq true).en = true) ∧
    far ((s.host 0).rq false).head 1 ≤ far ((s.host 0).rq false).head ((s.host 0).rq false).tail ∧
    far ((s.host 0).rq true).head ((s.host 0).rq true).tail < far ((s.host 0).rq true).head 1 ∧
    ((s.host 0).sqAt 0).en = false ∧ ((s.host 0).cqAt 0).en = false ∧ (leBytes 4 1).length = 4 ∧
    (zeros 8).length ≠ 4 ∧
    ((0x80 : BitVec 12) ≠ 0 ∧ (0x80 : BitVec 12) ≠ 0x40 ∧ ((1 : Fin 256) ≠ 0 ∨ ((0x80 : BitVec 12) ≠ 0x80 ∧ (0x80 : BitVec 12) ≠ 0xC0))) := by
  decide +kernel

theorem witness_RingEnableAndDisable :
    let s := withHost fun h => { h with
      sq := [(3, { Sq.reset with en := true, cq := 4 })],
      cq := [(0, { Cq.reset with en := true }), (3, { Cq.reset with en := true }), (5, { Cq.reset with en := true, owed := 1 })],
      eq := { Rq.reset with en := true } }
    let key := fun (b r : Nat) => b + 0x20 * r + 2 ^ 26
    let on := fun v => ((s.host 0).sqAt 9).fields (wideOf s (key 0x110000 9) (v / 2 * 2 + 1) (sqWord ((s.host 0).sqAt 9)) 1)
    let con := fun v => ((s.host 0).cqAt 9).fields (wideOf s (key 0x120000 9) (v / 2 * 2 + 1) (cqWord ((s.host 0).cqAt 9)) 1)
    let ron := fun v => ((s.host 0).rq true).fields (wideOf s (0x100120 + 2 ^ 26) (v / 2 * 2 + 1) (rqWord ((s.host 0).rq true)) 1)
    hostCan s 0 = true ∧
    (((s.host 0).sqAt 9).en = false ∧ sqMay (unstage (key 0x110000 9) s) 0 (on (1 + 4 * 2 ^ 2 + 3 * 2 ^ 16)) = true) ∧
    ((s.host 0).sqAt 3).en = true ∧
    (((s.host 0).cqAt 9).en = false ∧ 4 ≤ (con 0x11).log2 ∧ (con 0x11).log2 ≤ 16) ∧
    (((s.host 0).cqAt 3).en = true ∧ (∀ e ∈ (s.host 0).sq, e.2.en = true → e.2.cq ≠ 3) ∧ ((s.host 0).cqAt 3).owed = 0) ∧
    (((s.host 0).cqAt 5).en = true ∧ ((s.host 0).cqAt 5).owed ≠ 0) ∧
    (((s.host 0).rq true).en = false ∧ 4 ≤ (ron 0x11).log2 ∧ (ron 0x11).log2 ≤ 16) ∧
    ((s.host 0).rq false).en = true := by decide +kernel

theorem witness_DasRootLensAndExpansionWrites :
    let r := inState .running
    let c := inState .configured
    let x := c.modXp 3 fun p => { p with linkUp := true, devReady := true, reported := 8 * 2 ^ 30, tier := 1 }
    let t := x.modXp 3 fun p => { p with en := true, tier := 1, direct := 8 }
    let total := fun i => ((filterBelow 4 fun m => (t.xp m).tierOf m == i).map fun m => (t.xp m).direct).foldl (· + ·) 0
    let y := r.modXp 3 fun p => { p with devReady := true }
    (hostCan up 0 = true ∧ beforeRunning up = true ∧
      (bit (1 + 0x5FFFF * 2 ^ 21) 0 = true ∧ bits (1 + 0x5FFFF * 2 ^ 21) 42 21 < 0x60000)) ∧
    SMap.wf Cluster.reset up.clusters = true ∧
    (hostCan r 1 = true ∧ (beforeRunning r = false ∨ (bit 0 0 = true ∧ 0x60000 ≤ bits 0 42 21))) ∧
    (beforeRunning up = false ∨ (bit (1 + 0x60000 * 2 ^ 21) 0 = true ∧ 0x60000 ≤ bits (1 + 0x60000 * 2 ^ 21) 42 21)) ∧
    (hostCan up 0 = true ∧ bit up.boot.epbReady 15 = true ∧ (up.glob.state = .unconfigured ∨ up.glob.state = .configured)) ∧
    (bit r.boot.epbReady 15 = true ∧ r.glob.state ≠ .unconfigured ∧ r.glob.state ≠ .configured) ∧
    (hostCan x 0 = true ∧ (x.xp 3).devReady = true ∧ (x.glob.state = .unconfigured ∨ x.glob.state = .configured) ∧
      parkedOn x 3 = 0 ∧ 1 ≤ bits (1 + 2 + 8 * 2 ^ 16) 2 1 ∧ bits (1 + 2 + 8 * 2 ^ 16) 2 1 ≤ 2 ∧
      (t.xp 3).direct ≤ usableGib t 3 ∧ total 1 ≤ 512 ∧ total 2 ≤ 4096) ∧
    (hostCan y 0 = true ∧ (y.xp 3).devReady = true ∧ y.glob.state ≠ .unconfigured ∧ y.glob.state ≠ .configured) := by
  decide +kernel

theorem witness_RolesMoveBetweenHostPorts :
    let allowed := withHost fun h => { h with allow := true }
    let down := withHost fun h => { h with linkUp := false }
    let down1 := up.modHost 1 fun h => { h with linkUp := false }
    (hostCan allowed 1 = true ∧ (allowed.host 1).main = false ∧ 10 ≤ (allowed.host 1).hold ∧ (allowed.host 1).hold ≤ 1000 ∧
      SMap.wf HostPort.reset allowed.hosts = true ∧ ((allowed.host 0).allow = true ∨ (allowed.host 0).linkUp = false)) ∧
    (hostCan up 1 = true ∧ (up.host 0).allow = false ∧ (up.host 0).linkUp = true) ∧
    ((down.host (1 - down.mainPort)).main = false ∧ (down.host (1 - down.mainPort)).auto = true ∧
      (down.host (1 - down.mainPort)).linkUp = true ∧
      ((down.host down.mainPort).linkUp = false ∨ (down.host down.mainPort).perst = true)) ∧
    (pathOpen up .sideband = true ∧ Path.sideband.isFm = true ∧ (up.host 1).linkUp = true ∧ (up.host 1).main = false) ∧
    (pathOpen down1 .sideband = true ∧ (down1.host 1).linkUp = false) := by decide +kernel

theorem witness_PowerRegisterWrites :
    let r := inState .running
    let late := { up with now := 2 ^ 32, power := { up.power with armed := true, beat0 := 1 } }
    (Path.hp 0 ≠ .steward ∧ up.mgmt.up = true) ∧ (late.power.armed = true ∧ silent late = true) ∧
    (up.power.armed = false ∨ silent up = false) ∧
    (pathOpen up (.hp 0) = true ∧ pathOpen up .sideband = true ∧ Path.sideband.isFm = true) ∧
    (bit 1 0 = true ∨ bit 1 1 = true) ∧ (bit 2 0 = true ∨ bit 2 1 = true) ∧
    (up.glob.state = .unconfigured ∧ ¬(4 ≤ bits 0x38 3 0 ∧ bits 0x38 3 0 ≤ 7) ∧ ¬(4 ≤ bits 0x38 7 4 ∧ bits 0x38 7 4 ≤ 7)) ∧
    (pathOpen r (.hp 0) = true ∧ r.glob.state ≠ .unconfigured) ∧ hostCan up 1 = true := by decide +kernel

theorem witness_CountersChainClearAndSnapshot :
    let conf := { up with sealCore := { up.sealCore with conf := true } }
    let busy := { up with cnt := { up.cnt with busy := true, todo := 0b1100 } }
    let last := { up with cnt := { up.cnt with busy := true } }
    (hostCan up 0 = true ∧ up.boot.counters = true ∧ up.sealCore.conf = false) ∧
    47 < CKind.per .core ∧ (hostCan conf 0 = true ∧ conf.boot.counters = true ∧ conf.sealCore.conf = true) ∧
    (pathOpen up .sideband = true ∧ Path.sideband ≠ .steward ∧ (Path.sideband.isFm = true ∨ up.boot.counters = true) ∧ up.cnt.busy = false ∧
      (15 : BitVec 4) ≠ 0) ∧
    (pathOpen busy .sideband = true ∧ busy.cnt.busy = true) ∧
    (busy.cnt.busy = true ∧ bit busy.cnt.todo 2 = true ∧ busy.cnt.todo % 2 ^ 2 = 0) ∧
    (up.cnt.busy = false ∨ up.cnt.todo % 2 ^ 0 ≠ 0) ∧ (busy.cnt.busy = false ∨ busy.cnt.todo % 2 ^ 3 ≠ 0) ∧
    (last.cnt.busy = true ∧ last.cnt.todo = 0) := by decide +kernel

theorem witness_RegisterAccessByQuadword :
    let early := { up with boot := { up.boot with counters := false } }
    (pathOpen up (.hp 0) = true ∧ (isMsix 0 = false ∨ (Path.hp 0).isFm = true) ∧ 0x3FFFFF8 % 8 = 0 ∧ (zeros 8).length = 8) ∧
    (0 < (zeros 4).length ∧ 0x3FFFFFC + (zeros 4).length ≤ 2 ^ 26 ∧ (0x3FFFFFC % 8 ≠ 0 ∨ (zeros 4).length % 8 ≠ 0)) ∧
    (hostCan up 0 = true ∧ isMsix 0x20 = false ∧ isMsix 0x28 = false ∧ 0x20 % 8 = 0 ∧ 0x20 + 16 ≤ 2 ^ 26) ∧
    (∃ r, regAt 0x20 = some r ∧ (regAccess (.hp 0) r = .rw ∨ regAccess (.hp 0) r = .readOnly) ∧ regReady up r = true) ∧
    (∃ r, regAt 0x2C00000 = some r ∧ (regAccess (.hp 0) r = .rw ∨ regAccess (.hp 0) r = .readOnly) ∧
      regReady early r = false ∧ pathOpen early (.hp 0) = true) ∧
    (∃ r, regAt 0x28 = some r ∧ regReady up r = true ∧ (∀ q, r ≠ .mboxReq 2 q ∧ r ≠ .mboxRsp 2 q) ∧ r ≠ .mboxCtrl 2 ∧
      r ≠ .pkgState ∧ up.mgmt.up = true) ∧
    (∃ a, a % 8 = 0 ∧ a < 2 ^ 26 ∧ isMsix a = false ∧ regAt a = none ∧
      ((Path.hp 0).isFm = false ∨ wholeReach a = true)) ∧
    pathOpen State.reset (.hp 0) = false ∧ pathOpen up (.mgmt 0) = false := by
  refine ⟨by decide +kernel, by decide +kernel, by decide +kernel, ⟨_, rfl, ?_, ?_⟩, ⟨_, rfl, ?_, ?_, ?_⟩,
    ⟨.mgrReject, by decide +kernel, by decide +kernel, fun _ => ⟨nofun, nofun⟩, nofun, nofun, by decide +kernel⟩, ⟨0x48, ?_⟩, ?_⟩ <;> decide +kernel

/-- A clear in its phase `n`, with an expansion device on port 3 that has to be cleared by its method 1. -/
def clearing (n : Nat) : State :=
  (State.modXp 3 (fun p => { p with linkUp := true, devReady := true, reported := 2 ^ 30, en := true, tier := 1 })
    (inState .clearing)).modSeal fun k => { k with phase := n, method := 64 }

theorem witness_ClearRunsStepByStep :
    let fell := (clearing 4).modXp 3 fun p => { p with linkUp := false, fell := true }
    (clearRuns (clearing 1) = true ∧ (clearing 1).sealCore.phase = 1 ∧ updatesRun (clearing 1) = false) ∧
    (SMap.wf Cluster.reset up.clusters = true ∧ SMap.wf Core.reset (up.cluster 15).cores = true ∧
      SMap.wf Epb.reset up.epbs = true ∧ SMap.wf LensDesc.reset (up.epb 15).lens = true) ∧
    (clearRuns (clearing 2) = true ∧ (clearing 2).sealCore.phase = 2) ∧
    (clearRuns (clearing 3) = true ∧ (clearing 3).sealCore.phase = 3) ∧
    (clearWaits (clearing 4) 3 = true ∧ SMap.wf Xp.reset (clearing 4).xps = true ∧ 0 ≠ 3 ∧ methodOf (clearing 4) 3 ≠ 0) ∧
    (clearWaits fell 3 = true ∧ (fell.xp 3).linkUp = false ∧ (fell.xp 3).fell = true) ∧
    ((clearing 5).boot.thermtrip = false ∧ (clearing 5).glob.state = .clearing ∧ (clearing 5).sealCore.phase = 5) := by
  decide +kernel

theorem witness_MailboxRequests :
    let anon := { up with sealCore := { up.sealCore with ident := false } }
    let conf := { up with sealCore := { up.sealCore with conf := true } }
    let noisy := { up with sealCore := { up.sealCore with noiseFail := true } }
    let busy := up.modMbox 2 fun b => { b with busy := true }
    let work := { up with sealCore := { up.sealCore with jobs := [{ box := 0, status := 0, rsp := [] }] } }
    (mboxReach up 0 = true ∧ (up.mbox 0).busy = false ∧ SMap.wf Mbox.reset up.sealCore.mbox = true ∧ up.sealCore.ident = true) ∧
    (mboxReach anon 0 = true ∧ (anon.mbox 0).busy = false ∧ anon.sealCore.ident = false) ∧
    (mboxReach conf 1 = true ∧ conf.sealCore.conf = true) ∧
    (mboxReach (inState .assigned) 1 = true ∧ (inState .assigned).sealCore.conf = false ∧
      (inState .assigned).glob.state = .assigned ∧ (inState .assigned).sealCore.log = [] ∧
      (inState .assigned).sealCore.ident = true) ∧
    (up.sealCore.conf = false ∧ (up.glob.state ≠ .assigned ∨ up.sealCore.log ≠ [] ∨ up.sealCore.ident = false)) ∧
    (mboxReach (clearing 6) 2 = true ∧ (2 : Fin 3) = 2 ∧ (clearing 6).glob.state = .clearing ∧
      (clearing 6).sealCore.phase = 6) ∧
    ((2 : Fin 3) ≠ 2 ∨ (clearing 5).glob.state ≠ .clearing ∨ (clearing 5).sealCore.phase ≠ 6) ∧
    (zeros 32).length = 32 ∧ (mboxReach noisy 2 = true ∧ noisy.sealCore.ident = true ∧ noisy.sealCore.noiseFail = true) ∧
    (up.sealCore.ident = true ∧ up.sealCore.noiseFail = false) ∧ (busy.mbox 2).busy = true ∧
    work.sealCore.jobs = { box := 0, status := 0, rsp := [] } :: [] := by decide +kernel

theorem witness_ManagementProcessorSupervision :
    up.mgmt.up = true ∧ (up.boot.out = true ∧ up.sealCore.ready = true) ∧
    { up with mgmt := { up.mgmt with restarting := true } }.mgmt.restarting = true := by decide +kernel

theorem witness_PowerControllerEvents :
    let silent_ := { up with now := 2 ^ 32, power := { up.power with armed := true, beat0 := 1 } }
    let low := { up with power := { up.power with oppt := 6, duty := 1, hbmIssue := 6, limit := 100, estimate := 98 } }
    let slow := { up with power := { up.power with swSlow := true } }
    (silent_.power.armed = true ∧ silent_.power.orphan = false ∧ silent silent_ = true) ∧
    (up.power.running = true ∧ up.power.pmbusFail = false) ∧ max (2 : Fin 7).val (rungPoint up.power.thermalRung) ≠ 6 ∧
    (low.power.running = true ∧ low.power.oppt = 6 ∧ low.power.duty = 1 ∧ low.power.hbmIssue = 6 ∧
      97 * low.power.limit < 100 * low.power.estimate) ∧
    (pointMay up.power 5 16 = true ∧ pointMay up.power 5 15 = false) ∧ 105 ≤ (105 : BitVec 8).toNat ∧
    (slow.power.running = true ∧ (100 : BitVec 8).toNat ≤ 100 ∧ slow.power.swSlow = true) ∧
    (95 ≤ (95 : BitVec 8).toNat ∧ (90 : BitVec 8).toNat ≤ 90 ∧ SMap.wf Hbm.reset up.hbms = true) := by decide +kernel

theorem witness_PowerDomainsEnterAndWake :
    let park := { up with power := { up.power with hbmPark := 0b100000000000 } }
    let doze := setDomain 143 .doze up
    let parked := setDomain (Domain.switch).num .park up
    let trim := setDomain (coreDom 15 7) .trim up
    let waking := setDomain (coreDom 15 7) .park (up.modCore 15 7 fun x => { x with run := .waking })
    (up.domain (Domain.pool 15).num = .full ∧ domainMay up (.pool 15) .doze = true ∧
      (∀ c k, Domain.pool 15 ≠ .core c k) ∧ ∀ n, Domain.pool 15 ≠ .hbm n) ∧
    (park.domain (Domain.hbm 11).num = .full ∧ domainMay park (.hbm 11) .park = true) ∧
    (up.domain (coreDom 15 7) = .full ∧ (up.core 15 7).run = .halted) ∧ domainMay up (.core 15 7) .doze = false ∧
    ((doze.domain (Domain.pool 15).num).awake = false ∧ domainWakes doze (.pool 15) = true) ∧
    ((waking.domain (coreDom 15 7)).awake = false ∧ (waking.core 15 7).run = .waking) ∧
    ((trim.domain (coreDom 15 7)).awake = true ∧ (trim.core 15 7).run = .halted) ∧
    (parked.domain (Domain.switch).num = .park ∧ parked.domain (Domain.switch).num ≠ .full) := by
  refine ⟨⟨?_, ?_, nofun, nofun⟩, ?_⟩ <;> decide +kernel

/-! ### Commands of the rings -/

/-- A submission entry of eight little-endian quadwords. -/
def entry (w0 w1 w2 w3 : Nat) (w4 w5 w6 w7 : Nat := 0) : List Byte :=
  leBytes 8 w0 ++ leBytes 8 w1 ++ leBytes 8 w2 ++ leBytes 8 w3 ++ leBytes 8 w4 ++ leBytes 8 w5 ++ leBytes 8 w6 ++ leBytes 8 w7

/-- LENGTH, SRC_SPACE and DST_SPACE, with ATTR and WGEN above them, as bytes 24 to 31 hold them (R368). -/
def shape (len ss ds : Nat) (attr : Nat := 0) : Nat := len + ss * 2 ^ 40 + ds * 2 ^ 44 + attr * 2 ^ 48 + 3 * 2 ^ 56 * (if attr = 0 then 0 else 1)

/-- Slot 91, cluster 3, window 7, at byte 0 of it. -/
def far : Nat := 91 * 2 ^ 56 + 3 * 2 ^ 52 + 7 * 2 ^ 40

/-- RUNNING, with an enabled data ring 3 of TE 5 of cluster 2 and an enabled control ring 4, both completing to CQ 1, and
one entry of each made available. -/
def ringUp : State :=
  (inState .running).modHost 0 fun h => { h with
    sq := [(3, { Sq.reset with en := true, cluster := 2, te := 5, cq := 1, log2 := 4, tail := 1 }),
           (4, { Sq.reset with en := true, control := true, cq := 1, log2 := 4, tail := 1 })]
    cq := [(1, { Cq.reset with en := true, log2 := 4 })] }

/-- The same with the entry taken. -/
def took (e : List Byte) (s : State := ringUp) : State := after (exec (.commandTake 0 3 e) s)
def tookCtl (e : List Byte) (s : State := ringUp) : State := after (exec (.commandTake 0 4 e) s)

/-- A command that no queue holds. -/
def noCmd : TeCmd :=
  { id := 999, origin := .sill 0, entry := [], das := 0, verdict := none, started := false, phase := .running, trans := [],
    pkts := [], result := 0, detail := 0, failAddr := 0, failDpa := 0, failOff := 0, reserved := false, hport := 0, hgen := 0,
    pasid := none, data := [], cur := 0, acc := 0, cq := 0, mx := 0 }

/-- The command next to start in TE 5 of cluster 2, and the oldest one there. -/
def front (s : State) : TeCmd := (nextCmd (s.te 2 5)).getD noCmd
def oldest (s : State) : TeCmd := (s.te 2 5).queue.head?.getD noCmd

def teNextOk (s : State) (c t oc : Nat) (q : TeCmd) : Bool :=
  nextCmd (s.te c t) == some q && q.phase == .queued && entOpcode q.entry == oc && mayStart s (s.te c t) q

theorem teNext_of {s : State} {c t oc : Nat} {q : TeCmd} (h : teNextOk s c t oc q = true) : TeNext s c t oc q := by
  simp only [teNextOk, Bool.and_eq_true, beq_iff_eq] at h
  exact ⟨h.1.1.1, h.1.1.2, h.1.2, h.2⟩

def teRunsOk (s : State) (c t oc : Nat) (q : TeCmd) (host : List Byte) : Bool :=
  teNextOk s c t oc q && q.verdict == none && dataCheck3 (opened c t q host s) q.entry == none &&
  match ((ready c t q host s).te c t).cmd q.id with
  | none => false
  | some a => a.entry == q.entry && chkCmd (ready c t q host s) c a == .ok

theorem teRuns_of {s : State} {c t oc : Nat} {q : TeCmd} {host : List Byte} (h : teRunsOk s c t oc q host = true) :
    TePasses s c t oc q host ∧ ∃ r u, TeRuns s c t oc q host r u := by
  simp only [teRunsOk, Bool.and_eq_true, beq_iff_eq] at h
  have p : TePasses s c t oc q host := ⟨teNext_of h.1.1.1, h.1.1.2, fun _ => h.1.2⟩
  obtain ⟨a, ha⟩ : ∃ a, ((ready c t q host s).te c t).cmd q.id = some a := by
    cases e : ((ready c t q host s).te c t).cmd q.id with
    | none => simp [e] at h
    | some a => exact ⟨a, rfl⟩
  rw [ha] at h
  simp only [Bool.and_eq_true, beq_iff_eq] at h
  exact ⟨p, _, _, ⟨p, a, ha, h.2.1, h.2.2, rfl, rfl⟩⟩

/-- The state with the commands of TE 5 of cluster 2 changed. -/
def withCmds (f : TeCmd → TeCmd) (s : State) : State := s.modTe 2 5 fun te => { te with queue := te.queue.map f }

theorem witness_CommandTakeReservesAndQueues :
    let bad := entry 0x41 0x100 0 0
    let nop := entry 0 0 0 0
    let u := fun cq => (ringUp.emit (.hostRead 0 none 0 64)).modCq 0 cq fun c => { c with owed := c.owed + 1 }
    let asks := ringUp.modHost 0 fun h => { h with atsEn := true }
    let granted := asks.modHost 0 fun h => { h with atc := [{ pasid := none, page := 0, log2 := 12, read := true, write := false }] }
    (mayTake ringUp 0 3 = true ∧ ((ringUp.host 0).sqAt 3).control = false) ∧ mayTake up 0 3 = false ∧
    (mayTake ringUp 0 4 = true ∧ ((ringUp.host 0).sqAt 4).control = true ∧ (ctlVerdict (u 1) 0 4 (entry 0x7F 0 0 0)).isSome = true) ∧
    ctlVerdict (u 1) 0 4 nop = none ∧ (ctlVerdict (u 1) 0 4 bad).isSome = true ∧
    hostPageOk ringUp 0 none 0 false = true ∧ (mayTake asks 0 3 = true ∧ hostPageOk asks 0 none 0 false = false) ∧
    (mayTake granted 0 4 = true ∧ hostPageOk granted 0 none 0 false = true) ∧
    SMap.wf HostPort.reset ringUp.hosts = true ∧
    SMap.wf Cluster.reset ringUp.clusters = true ∧ SMap.wf Te.reset (ringUp.cluster 2).tes = true := by decide +kernel

/-- Sillage on, so that SILL_PREFETCH and SILL_COMMIT are legal. -/
def sillUp : State := { ringUp with sill := { ringUp.sill with en := true, first := 100, last := 9999, cptLog2 := 10 } }

theorem witness_DataCommandsStartAndRun :
    let copy := took (entry 0x01 0x100 0x200 (shape 64 0 1))
    let verify := took (entry 0x02 0x100 0 (shape 16 0 0))
    let put := took (entry 0x03 0x100 far (shape 4112 0 4))
    let get := took (entry 0x04 far 0x100 (shape 32 4 0))
    let mput := took (entry 0x05 0x100 far (shape 32 0 4))
    let rput := took (entry 0x06 0x100 far (shape 32 0 4 0x11))
    let oput := took (entry 0x07 0x100 far (shape 32 0 4 0x15))
    let lseput := took (entry 0x08 0x100 far (shape (lseBlock 16) 0 4 0x85) 16)
    let atomic := took (entry 0x09 0x100 far (shape 4 0 4 0x11))
    let prefetch := took (entry 0x0A 0x100 0 (shape 8 0 0)) sillUp
    let commit := took (entry 0x0B 0 0 0 0 (2 ^ 32)) sillUp
    let nop := took (entry 0 0 0 0)
    let bad := took (entry 0x01 0x100 0x200 (shape 0 0 1))
    teRunsOk copy 2 5 0x01 (front copy) [] = true ∧ teRunsOk verify 2 5 0x02 (front verify) [] = true ∧
    teRunsOk put 2 5 0x03 (front put) [] = true ∧ teRunsOk get 2 5 0x04 (front get) [] = true ∧
    teRunsOk mput 2 5 0x05 (front mput) [] = true ∧ teRunsOk rput 2 5 0x06 (front rput) [] = true ∧
    teRunsOk oput 2 5 0x07 (front oput) [] = true ∧ teRunsOk lseput 2 5 0x08 (front lseput) [] = true ∧
    teRunsOk atomic 2 5 0x09 (front atomic) [] = true ∧ teRunsOk prefetch 2 5 0x0A (front prefetch) [] = true ∧
    teRunsOk commit 2 5 0x0B (front commit) [] = true ∧ teRunsOk nop 2 5 0x00 (front nop) [] = true ∧
    (teNextOk bad 2 5 0x01 (front bad) = true ∧ (front bad).verdict = some stMalformed) ∧
    (let s := (withCmds (fun q => { q with phase := .armed 63, origin := .core 2 7 5 false false 0 }) copy).modCore 2 7
        fun x => { x with tokens := [(63, 1)] };
      nextCmd (s.te 2 5) = some (front s) ∧ (front s).phase = .armed 63 ∧ (front s).origin = .core 2 7 5 false false 0 ∧
      SMap.get 0 (s.core 2 7).tokens 63 ≠ 0 ∧ mayStart s (s.te 2 5) (front s) = true) ∧
    nextCmd (up.te 0 0) = none := by decide +kernel

theorem witness_CopyMovesItsBytes :
    let s := { took (entry 0x01 0x100 0x200 (shape 17 0 1)) with dev := [] }
    let q := front s
    let h := front (took (entry 0x01 0x100 0x200 (shape 17 3 1)))
    entOpcode q.entry = 0x01 ∧ entVerify q.entry = false ∧ entSeal q.entry = false ∧ entMeasure q.entry = false ∧
    (entOpcode h.entry = 0x01 ∧ entVerify h.entry = false ∧ entSeal h.entry = false ∧ entMeasure h.entry = false ∧
      h.data = [] ∧ (let src := segsOf s 2 h 3 (entSrc h.entry) 17;
        hostShort h src = true ∧ firstBad (countEpb 2 23 2 (noteReads 2 h src s)) 2 false 0 src = none)) ∧
    (let src := segsOf s 2 q (entSrcSpace q.entry) (entSrc q.entry) 17;
      let u := countEpb 2 23 2 (noteReads 2 q src s);
      hostShort q src = false ∧ firstBad u 2 false 0 src = none ∧
      firstBad u 2 true 0 (segsOf s 2 q (entDstSpace q.entry) (entDst q.entry) 17) = none) := by decide +kernel

/-- The control command of ring 4 next to start. -/
def frontCtl (s : State) : CtlCmd := ((s.host 0).ctl.head?).getD
  { ring := 0, index := 0, gen := 0, entry := [], verdict := none, phase := .queued, trans := [], reserved := false,
    waits := [], cmds := [], cq := 1, das := 0, pasid := none, taken := 0 }

def ctlNextOk (s : State) (oc : Nat) : Bool :=
  nextCtl s 0 4 == some (frontCtl s) && entOpcode (frontCtl s).entry == oc && ctlMayStart s 0 (frontCtl s) && !lapsed s (frontCtl s)

theorem ctlNext_of {s : State} {oc : Nat} (h : ctlNextOk s oc = true) : CtlNext s 0 4 oc (frontCtl s) := by
  simp only [ctlNextOk, Bool.and_eq_true, beq_iff_eq, Bool.not_eq_true'] at h
  exact ⟨h.1.1.1, h.1.1.2, h.1.2, h.2⟩

/-- TE 5 of cluster 2 stalled. -/
def stalledUp : State := ringUp.modTe 2 5 fun te => { te with fault := zeros 64 }

theorem witness_ControlCommandsActOnTheirUnits :
    let inv := tookCtl (entry 0x43 2 0 (2 ^ 48))
    let far_ := tookCtl (entry 0x43 2 1 (2 ^ 48))
    let load := tookCtl (entry 0x45 (2 + 0x80 * 2 ^ 8) 0 (2 + 16 * 2 ^ 32))
    let loading := load.modCtl 0 4 (frontCtl load).index fun k => { k with phase := .running 0 0 }
    let sill := fun oc w1 w2 => tookCtl (entry oc w1 w2 0) sillUp
    ctlNextOk (tookCtl (entry 0 0 0 0)) 0x00 = true ∧ ctlNextOk (tookCtl (entry 0x41 2 0 0)) 0x41 = true ∧
    ctlNextOk (tookCtl (entry 0x42 2 0 0)) 0x42 = true ∧ ctlNextOk inv 0x43 = true ∧ ctlNextOk far_ 0x43 = true ∧
    leAt (frontCtl inv).entry 16 8 + leAt (frontCtl inv).entry 24 8 ≤ 2 ^ 48 ∧
    2 ^ 48 < leAt (frontCtl far_).entry 16 8 + leAt (frontCtl far_).entry 24 8 ∧
    ctlNextOk (tookCtl (entry 0x44 (2 + 2 ^ 8) 0 0)) 0x44 = true ∧
    ctlNextOk (tookCtl (entry 0x46 (2 + 0xFF * 2 ^ 8) 0x3FFF 0)) 0x46 = true ∧
    (let late := (tookCtl (entry 0x46 (2 + 0xFF * 2 ^ 8) 0x3FFF 0)).modCore 2 7 fun x => { x with run := .running };
      nextCtl late 0 4 = some (frontCtl late) ∧ entOpcode (frontCtl late).entry = 0x46 ∧
      ctlMayStart late 0 (frontCtl late) = true ∧ lapsed late (frontCtl late) = true) ∧
    ctlNextOk (tookCtl (entry 0x47 (2 + 1 * 2 ^ 8) 0 0)) 0x47 = true ∧
    ctlNextOk (tookCtl (entry (0x48 + 2 ^ 14) (2 + 5 * 2 ^ 8) 0 0) stalledUp) 0x48 = true ∧
    (readyLoad load 0 4 = none ∧ ctlNextOk load 0x45 = true) ∧ readyLoad loading 0 4 = some (frontCtl loading) ∧
    (∀ s ∈ [sill 0x50 5 (2 ^ 21), sill 0x51 (5 + 2 ^ 32) 0, sill 0x52 (5 + 2 ^ 48) 0, sill 0x53 (5 + 2 ^ 32) 0,
        sill 0x54 (5 + 2 ^ 32) 2, sill 0x55 5 0],
      ((ctlStarted 0 4 (frontCtl s) s).host 0).ctlAt 4 (frontCtl s).index =
        some { frontCtl s with phase := .running 0 0 }) ∧
    ctlNextOk (sill 0x50 5 (2 ^ 21)) 0x50 = true ∧ ctlNextOk (sill 0x51 (5 + 2 ^ 32) 0) 0x51 = true ∧
    ctlNextOk (sill 0x52 (5 + 2 ^ 48) 0) 0x52 = true ∧ ctlNextOk (sill 0x53 (5 + 2 ^ 32) 0) 0x53 = true ∧
    ctlNextOk (sill 0x54 (5 + 2 ^ 32) 2) 0x54 = true ∧ ctlNextOk (sill 0x55 5 0) 0x55 = true ∧
    (SMap.wf Cluster.reset ringUp.clusters = true ∧
      ∀ cl, cl ∈ ringUp.clusters → SMap.wf Core.reset cl.2.cores = true ∧ SMap.wf Te.reset cl.2.tes = true) := by
  decide +kernel

theorem witness_DrainsAndSwitchPointsComplete :
    let run := fun st g (s : State) => s.modCtl 0 4 (frontCtl s).index fun k => { k with phase := .running st g }
    let update := run 0 0 (tookCtl (entry 0x41 (2 + 4095 * 2 ^ 16) 0 0))
    let drained := run 1 7 (tookCtl (entry 0x41 (2 + 4095 * 2 ^ 16) 0 0))
    let pkt : Packet := { hdr := { Header.ofBytes [] with offset := 4095 * 2 ^ 40 }, payload := [], trailer := 0 }
    let holds := fun (s : State) =>
      (s.modEpb 2 fun b => { b with pageWait := [{ pkt := pkt, cpn := 0, desc := LensDesc.reset }] }).modCtl 0 4 (frontCtl s).index
        fun k => { k with waits := [pkt] }
    let busy := holds drained
    let inv := run 0 0 (tookCtl (entry 0x42 (2 + 4095 * 2 ^ 16) 0 0))
    let dva := run 0 0 (tookCtl (entry 0x43 2 0 0))
    let used := (withCmds (fun q => { q with phase := .running }) (took (entry 0x01 0x100 0x200 (shape 17 0 1)) dva)).modCtl 0 4
      (frontCtl dva).index fun k => { k with cmds := [(2, 5, 0)] }
    (waitingUpdates update 2 4095 = (0, frontCtl update) :: [] ∧ updateBad update (frontCtl update) = false ∧
      spaced update 2 4095 = true) ∧
    waitingUpdates update 2 0 = [] ∧
    (SMap.wf Epb.reset update.epbs = true ∧ (∀ b, b ∈ update.epbs → SMap.wf LensDesc.reset b.2.lens = true) ∧
      openSessions (update.epb 2) = []) ∧
    ((drained.host 0).ctlNamed 4 0 = some (frontCtl drained) ∧ (frontCtl drained).index = 0 ∧
      entOpcode (frontCtl drained).entry = 0x41 ∧ (frontCtl drained).phase = .running 1 7 ∧
      drainBusy drained 2 4095 (frontCtl drained).waits = false ∧ oldRoot drained 2 4095 7 = false) ∧
    ((busy.host 0).ctlNamed 4 0 = some (frontCtl busy) ∧ (frontCtl busy).phase = .running 1 7 ∧
      drainBusy busy 2 4095 (frontCtl busy).waits = true) ∧
    ((inv.host 0).ctlNamed 4 0 = some (frontCtl inv) ∧ entOpcode (frontCtl inv).entry = 0x42 ∧
      (frontCtl inv).phase ≠ .queued ∧ drainBusy inv 2 4095 (frontCtl inv).waits = false) ∧
    drainBusy (holds inv) 2 4095 (frontCtl (holds inv)).waits = true ∧
    ((dva.host 0).ctlNamed 4 0 = some (frontCtl dva) ∧ entOpcode (frontCtl dva).entry = 0x43 ∧
      (frontCtl dva).phase ≠ .queued ∧ (frontCtl dva).cmds.any (cmdBusy dva) = false) ∧
    ((used.host 0).ctlNamed 4 0 = some (frontCtl used) ∧ (frontCtl used).cmds.any (cmdBusy used) = true) ∧
    (let w := { inUpdate with glob := { inUpdate.glob with clearWait := true } };
      updatesRun w = true ∧ inUpdate.glob.clearWait = false ∧
      updatesRun { ringUp with glob := { ringUp.glob with clearWait := true } } = false) := by decide +kernel

/-- A COPY of 17 bytes from device memory at virtual page 0 of DAS 0, whose root page is tier-0 frame 16, waiting for its
walk; the table holds what `dev` writes into it. -/
def walkUp (dev : State → State) (s : State := ringUp) : State :=
  dev (after (exec (.copy 2 5 []) (took (entry 0x01 0x100 0x200 (shape 17 2 1))
    { s with glob := { s.glob with dasValid := [(0, true)], dasRoot := [(0, 16)] } })))

def quadAt (a v : Nat) (s : State) : State := devWrite a (leBytes 8 v) s

/-- Context page 9 parked in frame 0 of the park store of expansion port 3. -/
def parked (s : State) : State :=
  devWrite (cptAddr s 9) (leBytes 32 (pgParked + 2 ^ 5 + 3 * 2 ^ 64))
    ((s.modXp 3 fun p => { p with linkUp := true, devReady := true, reported := 8 * 2 ^ 30, en := true, tier := 1 }).modSill
      fun l => { l with parkUsed := [(3, 0)] })

/-- A command of ring 3 that waits for a host page. -/
def hostWait (ph : CmdPhase) : State := withCmds (fun q => { q with phase := ph }) (took (entry 0x01 0x100 0x200 (shape 17 3 1)))

theorem witness_TranslationEvents :
    let leaf := walkUp (quadAt (16 * 2 ^ 21) 0x1D)
    let bad := walkUp id
    let away := walkUp (fun s => quadAt 0x3000000 (2 + 16 + 9 * 2 ^ 21) (quadAt (16 * 2 ^ 21) 0x3000001 (parked s))) sillUp
    let inv := ringUp.modHost 0 fun h => { h with inval := [(31, 7, 12)] }
    let ats := (hostWait (.ats 0 5 true)).modHost 0 fun h => { h with atsEn := true, priEn := true }
    let pri := (hostWait (.pri 0 5 false)).modHost 0 fun h => { h with atsEn := true, priEn := true }
    (walkingCmd (leaf.te 2 5) = some (oldest leaf, 0, 0) ∧
      walkEnd (wakeWalk leaf 0 0) 0 0 = .leaf { das := 0, page := 0, count := 512, entry := 0x1D }) ∧
    (walkingCmd (bad.te 2 5) = some (oldest bad, 0, 0) ∧ walkEnd (wakeWalk bad 0 0) 0 0 = .bad stBounds (16 * 2 ^ 21) ∧
      stBounds ≠ stUncorrected) ∧
    (walkingCmd (away.te 2 5) = some (oldest away, 0, 0) ∧ (let u := wakeWalk away 0 0;
      walkEnd u 0 0 = .away 9 0x3000000 ∧ pageVerdict u 9 = none ∧ pageState (demandPage 9 u) 9 ≠ pgResident)) ∧
    (12 ≤ 12 ∧ 12 ≤ 30 ∧ (ats.host 0).atsEn = true ∧
      atsWaiters ats 0 (waitsAts { pasid := none, page := 5, log2 := 12, read := true, write := false }) ≠ [] ∧
      loadsWaiting ats 0 loadAts (fun _ => true) = [] ∧ hostLandings ats 0 false = [] ∧ (ats.host 0).ringAsks = []) ∧
    (30 ≤ 30 ∧ atsWaiters ats 0
      (waitsAts { pasid := none, page := 2 ^ 18 - 1, log2 := 30, read := true, write := true }) ≠ []) ∧
    (loadsWaiting pri 0 loadPri (· == 5) = [] ∧ hostLandings pri 0 true = [] ∧ (pri.host 0).ringAsks = [] ∧
      atsWaiters pri 0 (waitsPri 5) ≠ []) ∧
    ((pri.te 2 5).cmd (oldest pri).id).isSome = true ∧
    (12 ≤ 12 ∧ 12 ≤ 64) ∧ 64 ≤ 64 ∧
    (inv.host 0).inval.find? (fun i => i.1 == 31) = some (31, 7, 12) := by
  decide +kernel

/-- A PUT of 16 bytes whose one packet is in the fabric. -/
def putOut : State := after (exec (.put 2 5 (zeros 16)) (took (entry 0x03 0x100 far (shape 16 0 4))))

theorem witness_TransferEngineTimersAndReports :
    let q := oldest putOut
    let back := withCmds (fun q => { q with pkts := q.pkts.map fun p => { p with state := .backoff 0 } }) putOut
    let done := fun st o => withCmds (fun q => { q with phase := .done st, origin := o }) putOut
    let ring := Origin.ring 0 3 0 0
    let core := Origin.core 2 7 5 false true 0
    slotOwner back 2 5 0 = some (q.id, 0) ∧ (slotPkt back 2 5 0).map (·.state) = some (.backoff 0) ∧
    (slotPkt putOut 2 5 0).map (·.state) = some (.outstanding 0) ∧
    ((putOut.modTe 2 5 (Te.setSlot 511 .quarantined)).te 2 5).slotAt 511 = .quarantined ∧
    (putOut.te 2 5).slotAt 0 ≠ .quarantined ∧
    ((done stOk ring).te 2 5).queue = { q with phase := .done stOk, origin := ring } :: [] ∧
    ((done stOk core).te 2 5).queue = { q with phase := .done stOk, origin := core } :: [] ∧
    (((done stPermission ring).te 2 5).queue = { q with phase := .done stPermission, origin := ring } :: [] ∧
      stPermission ≠ stOk ∧ stPermission ≠ stStateReject ∧ stPermission ≠ stTornDown ∧ stPermission ≠ stTimeout) ∧
    (up.te 15 7).queue = [] := by decide +kernel

/-! ### Packets at an endpoint -/

/-- A request to window 7 of endpoint 3, at byte `pos`, from endpoint 0 of this package. -/
def request (op attr : Nat) (bs : List Byte) (cnt : Nat := 0) (f : Nat := 0) (pos : Nat := 2 ^ 21 - 16) (part : Nat := 5) : Packet :=
  Packet.make { Header.zero with
    dnode := 90 * 16 + 3, snode := 90 * 16, op := BitVec.ofNat 8 op, attr := BitVec.ofNat 8 attr, part := BitVec.ofNat 6 part,
    cnt := BitVec.ofNat 16 cnt, f := BitVec.ofNat 1 f, offset := BitVec.ofNat 52 (7 * 2 ^ 40 + pos), wgen := 3, vc := 1 } bs

def carry : Packet :=
  Packet.make { Header.zero with dnode := 90 * 16 + 3, snode := 90 * 16, op := BitVec.ofNat 8 opCarry, part := 5, cnt := 65535, f := 1, vc := 1 } []

/-- Window 7 of endpoint 3 covers 2 MiB of device memory for every operation, and the packet waits in its buffer. -/
def atEpb (p : Packet) (s : State := inState .running) : State :=
  s.modEpb 3 fun b => { b with
    rx := [p]
    lens := [(7, { LensDesc.reset with valid := true, size := 21, rd := true, wr := true, at_ := true, re := true, part := 5,
                                       wgen := 3, base := 2 ^ 21 })] }

def targetOf (s : State) (e : Nat) (p : Packet) : Target :=
  windowTarget (taken e p s) e (LensDesc.at_w (taken e p s) e p.hdr.window) p.hdr.window p.hdr.pos (addressed p.hdr)

def workedIn (s : State) (e : Nat) (p : Packet) : State :=
  if isCarry p.hdr then taken e p s
  else cachePages e (LensDesc.at_w (taken e p s) e p.hdr.window) p.hdr.window p.hdr.pos (addressed p.hdr) (taken e p s)

def headOk (s : State) (e op : Nat) (p : Packet) : Bool :=
  (s.epb e).rx.head? == some p && p.hdr.hcrcOk && p.hdr.op.toNat == op && !headBlocked s e p

theorem headIs_of {s : State} {e op : Nat} {p : Packet} (h : headOk s e op p = true) : HeadIs s e op p := by
  simp only [headOk, Bool.and_eq_true, beq_iff_eq, Bool.not_eq_true'] at h
  exact ⟨h.1.1.1, h.1.1.2, h.1.2, h.2⟩

/-- Every check of a request that names one segment of bytes, in Bool. -/
def acceptOk (s : State) (e op : Nat) (p : Packet) (gs : List Seg) : Bool :=
  headOk s e op p && !tornDown (taken e p s) && headerVerdict p == none && (taken e p s).glob.part == some p.hdr.part.toNat &&
  !tableFull (taken e p s) e p.hdr && (recOf (taken e p s) e p.hdr).isNone &&
  (isCarry p.hdr || (lensVerdict (LensDesc.at_w (taken e p s) e p.hdr.window) p.hdr == none && targetOf s e p == .segs gs &&
    !mustQueue (workedIn s e p) e p gs))

theorem accepted_of {s : State} {e op : Nat} {p : Packet} {gs : List Seg} (h : acceptOk s e op p gs = true) :
    Accepted s e op p gs (workedIn s e p) := by
  simp only [acceptOk, Bool.and_eq_true, Bool.or_eq_true, beq_iff_eq, Bool.not_eq_true', Option.isNone_iff_eq_none] at h
  obtain ⟨⟨⟨⟨⟨⟨h1, h2⟩, h3⟩, h4⟩, h5⟩, h6⟩, h7⟩ := h
  refine ⟨headIs_of h1, h2, h3, h4, fun _ => ⟨h5, fun r hr => ?_⟩, fun hc => ?_, fun hc => ?_, rfl, fun hc => ?_⟩
  · rw [h6] at hr; cases hr
  all_goals
    rw [hc] at h7
    simp only [Bool.false_eq_true, false_or] at h7
  · exact h7.1.1
  · exact h7.1.2
  · exact h7.2

theorem witness_FabricRequestsAreServed :
    let ok := fun (op : Nat) (p : Packet) (gs : List Seg) => acceptOk (atEpb p) 3 op p gs
    let g := fun n : Nat => [({ pool := false, addr := 2 ^ 22 - n, len := n } : Seg)]
    let u := fun p => workedIn (atEpb p) 3 p
    let plain := fun p => ((recOf (u p) 3 p.hdr).getD (newRec p.hdr)).held = none ∧
      ((recOf (u p) 3 p.hdr).getD (newRec p.hdr)).broken = false
    let good := fun p => segsBad (u p) 3 false (g 16) = false ∧ segsBad (u p) 3 true (g 16) = false
    let load := request opLoad 0 [] (cnt := 256) (pos := 2 ^ 21 - 4096)
    let fetch := request opFetch 0x11 (zeros 16)
    let swap := request opCswap 0x01 (zeros 16)
    let reduce := request opReduce 0x11 (zeros 16)
    let wreduce := request opWreduce 0x18 (zeros 16)
    let oreduce := request opOreduce 0x15 (zeros 16)
    let lse := request opLse 0x85 (zeros (lseBlock 16)) (cnt := 16) (pos := 0)
    let store := request opStore 0 (zeros 16)
    let mcast := request opMcast 0 (zeros 16)
    (ok opLoad load (g 4096) = true ∧ segsBad (u load) 3 false (g 4096) = false) ∧
    (ok opFetch fetch (g 16) = true ∧ good fetch) ∧ (ok opCswap swap (g 16) = true ∧ good swap) ∧
    (ok opReduce reduce (g 16) = true ∧ good reduce) ∧ (ok opWreduce wreduce (g 16) = true ∧ good wreduce) ∧
    ok opOreduce oreduce (g 16) = true ∧ ok opLse lse [{ pool := false, addr := 2 ^ 21, len := 32 }] = true ∧
    (ok opStore store (g 16) = true ∧ isCarry store.hdr = false ∧ store.hdr.f = 0 ∧ store.hdr.len ≠ 0 ∧ good store ∧ plain store) ∧
    (ok opMcast mcast (g 16) = true ∧ isCarry mcast.hdr = false ∧ mcast.hdr.f = 0 ∧ mcast.hdr.len ≠ 0 ∧ good mcast ∧ plain mcast) ∧
    ok opCarry carry [] = true := by
  decide +kernel

theorem witness_FencedEndpointAnswersTornDown :
    let p := fun op attr => request op attr (zeros 16)
    (∀ x ∈ [(opLoad, 0), (opStore, 0), (opFetch, 0x11), (opCswap, 1), (opReduce, 0x11), (opWreduce, 0x18), (opOreduce, 0x15),
        (opLse, 0x85), (opMcast, 0), (opCarry, 0)],
      headOk (atEpb (p x.1 x.2) (inState .fenced)) 3 x.1 (p x.1 x.2) = true ∧
      headOk (atEpb (p x.1 x.2) (inState .clearing)) 3 x.1 (p x.1 x.2) = true ∧
      headOk (atEpb (p x.1 x.2)) 3 x.1 (p x.1 x.2) = true) ∧
    (inState .fenced).glob.state = .fenced ∧ (inState .clearing).glob.state = .clearing ∧
    ((atEpb carry).glob.state ≠ .fenced ∧ (atEpb carry).glob.state ≠ .clearing) ∧
    headerVerdict (request opLoad 0 [] (cnt := 257)) = some stMalformed ∧
    (let q := request opLoad 0 [] (cnt := 256) (part := 6); headOk (atEpb q) 3 opLoad q = true ∧
      headerVerdict q = none ∧ (atEpb q).glob.part ≠ some q.hdr.part.toNat) := by decide +kernel

theorem witness_ResponsesReachTheirCommand :
    let q := (putOut.te 2 5).queue.head?.bind fun q => q.pkts.head?
    let pkt := (q.map fun p => p.pkt).getD carry
    let resp := fun (op st : Nat) => respond { pkt.hdr with op := BitVec.ofNat 8 op, tid := 5 * 512 } st 0 []
    let tired := withCmds (fun q => { q with pkts := q.pkts.map fun p => { p with tries := 24 } }) putOut
    let found := fun s => (answered s 2 (5 * 512) (opStore + 0x80)).map fun r => (r.1.id, r.2.1, r.2.2.tries)
    (∀ op ∈ [opLoad, opStore, opFetch, opCswap, opReduce, opWreduce, opOreduce, opLse, opMcast, opCarry],
      headOk (atEpb (resp op stOk)) 3 (op + 0x80) (resp op stOk) = true) ∧
    (answered putOut 2 (5 * 512 + 1) (opStore + 0x80) = none ∧ answered putOut 2 (5 * 512) (opLoad + 0x80) = none) ∧
    ((resp opStore stOk).hdr.tid.toNat = 5 * 512 ∧ (resp opStore stOk).hdr.op.toNat = opStore + 0x80) ∧
    (found putOut = some (0, 0, 0) ∧ (resp opStore stHoldFull).hdr.attr.toNat = stHoldFull ∧ 0 < 24) ∧
    (resp opStore stOk).hdr.attr.toNat = stOk ∧
    ((resp opStore stBounds).hdr.attr.toNat ≠ stOk ∧ (resp opStore stBounds).hdr.attr.toNat ≠ stHoldFull) ∧
    (found tired = some (0, 0, 24) ∧ (resp opStore stHoldFull).hdr.attr.toNat ≠ stOk) ∧
    ((resp opStore stOk).hdr.rsv0 = 0 ∧ (resp opStore stOk).hdr.rsv1 = 0) := by decide +kernel

/-- A session of window 4095 at its last position. -/
def session (root : Option (List Byte)) : Session :=
  { window := 4095, pos := 2 ^ 40 - 16, step := 65535, len := 1, attr := 0x15, cnt := 1, got := [], held := [], root := root,
    desc := LensDesc.reset }

theorem witness_EndpointTimersAndSessions :
    let s := fun x => up.modEpb 15 fun b => { b with sessions := [x] }
    let named := fun (x : Session) => x.named 4095 (2 ^ 40 - 16) 65535
    let held : StreamRec := { snode := 2303, stag := 63, landed := 2, held := some { pkt := carry, segs := [] }, broken := false }
    let h := up.modEpb 15 fun b => { b with streams := [held] }
    let due := up.modEpb 15 fun b => { b with
      streams := [{ held with landed := 65535 }] }
    let many := List.replicate 8192 { held with snode := 0, held := none }
    let c : Collided := { pkt := request opStore 0 (zeros 16), segs := [{ pool := false, addr := 64, len := 16 }] }
    let d := up.modEpb 15 fun b => { b with collide := [c] }
    let w : PageWait := { pkt := carry, cpn := 0, desc := LensDesc.reset }
    let p := up.modEpb 15 fun b => { b with pageWait := [w] }
    (((s (session (some (zeros 16)))).epb 15).sessions.find? (fun x => x.root.isSome && named x) = some (session (some (zeros 16))) ∧
      (session (some (zeros 16))).root = some (zeros 16)) ∧
    ((s (session none)).epb 15).sessions.find? (fun x => x.root.isNone && named x) = some (session none) ∧
    (SMap.wf Epb.reset (s (session none)).epbs = true ∧ ((s (session none)).epb 15).notifyEn = false) ∧
    ((h.epb 15).streams.find? (fun r => r.snode == 2303 && r.stag == 63) = some held ∧
      held.held = some { pkt := carry, segs := [] } ∧ SMap.wf Epb.reset h.epbs = true) ∧
    (({ held with landed := 65535 } : StreamRec).due = true ∧ held.due = false ∧
      (due.epb 15).streams.find? (fun r => r.snode == 2303 && r.stag == 63) = some { held with landed := 65535 }) ∧
    readyCollided d.now (d.epb 15).busy [] (d.epb 15).collide = some c ∧
    (inStream c.pkt.hdr.op.toNat = true ∧ tableFull d 15 c.pkt.hdr = false ∧
      tableFull (d.modEpb 15 fun b => { b with streams := many }) 15 c.pkt.hdr = true) ∧ (p.epb 15).pageWait = w :: [] := by decide +kernel

/-- A management packet of a manager or another node, at the last register or another address, in its queue. -/
def mgmtPkt (op : Nat) (bs : List Byte) (off : Nat := 0x8) (attr : Nat := 0) (snode : Nat := 143 * 16) : Packet :=
  Packet.make { Header.zero with
    dnode := 90 * 16, snode := BitVec.ofNat 12 snode, op := BitVec.ofNat 8 op, offset := BitVec.ofNat 52 off,
    attr := BitVec.ofNat 8 attr } bs

def managed (p : Packet) (listed : Bool := true) : State :=
  { up with
    glob := { up.glob with mgrs := [(0, { node := 143 * 16, valid := true })] }
    mgmt := { up.mgmt with rx := [{ pkt := p, listed := listed }] } }

/-- What is left once the packet has been taken. -/
def unmanaged (p : Packet) : State := { managed p with mgmt := { up.mgmt with rx := [] } }

theorem witness_ManagementPackets :
    let took := fun op p => takeMgmt op (managed p) = some ({ pkt := p, listed := true }, unmanaged p)
    let good := fun p => mgmtVerdict { pkt := p, listed := true } = none
    let rd := fun a => mgmtPkt opMgmtRead [] a
    let wr := fun a => mgmtPkt opMgmtWrite (zeros 16) a
    let msg := mgmtPkt opMgmtMsg (zeros 16) 0
    let full := { unmanaged msg with mgmt := { up.mgmt with inbox := List.replicate Config.inboxSize [] } }
    (∀ p ∈ [(opMgmtRead, rd 0x20), (opMgmtRead, rd 0x110000), (opMgmtWrite, wr 0x20), (opMgmtWrite, wr 0x110000),
        (opMgmtMsg, msg)], took p.1 p.2 ∧ good p.2) ∧
    ((quadRead (.mgmt (143 * 16)) 0x20 (unmanaged (rd 0x20))).isSome = true ∧
      quadRead (.mgmt (143 * 16)) 0x110000 (unmanaged (rd 0x110000)) = none) ∧
    ((quadWrite (.mgmt (143 * 16)) 0x20 0 (unmanaged (wr 0x20))).isSome = true ∧
      quadWrite (.mgmt (143 * 16)) 0x110000 0 (unmanaged (wr 0x110000)) = none) ∧
    ((unmanaged msg).mgmt.up = true ∧ (unmanaged msg).mgmt.inbox.length < Config.inboxSize) ∧
    Config.inboxSize ≤ full.mgmt.inbox.length ∧
    (let p := mgmtPkt opMgmtRead [] 0 0 5;
      takeMgmt opMgmtRead (managed p false) = some ({ pkt := p, listed := false }, unmanaged p) ∧ onList (managed p) 5 = false) ∧
    (let p := rd 4; took opMgmtRead p ∧ onList (managed p) (143 * 16) = true ∧ mgmtForm p = false) ∧
    (let p := { wr 8 with trailer := 1 }; took opMgmtWrite p ∧ mgmtForm p = true ∧ p.trailerOk = false) ∧
    (∀ op ∈ [opMgmtRead, opMgmtWrite, opMgmtMsg], took (op + 0x80) (mgmtPkt (op + 0x80) [])) := by
  refine ⟨by decide +kernel, by decide +kernel, by decide +kernel, ⟨rfl, Nat.succ_pos _⟩, ?_, by decide +kernel⟩
  simp

/-! ### The switch and the links -/

/-- A packet of the fabric from node `sn` to node `dn`. -/
def flow (op dn sn vc : Nat) (hop : Nat := 0) : Packet :=
  Packet.make { Header.zero with
    op := BitVec.ofNat 8 op, dnode := BitVec.ofNat 12 dn, snode := BitVec.ofNat 12 sn, vc := BitVec.ofNat 3 vc,
    hop := BitVec.ofNat 2 hop, part := 5, wgen := 3 } []

/-- The packet waits at fabric port 87, and at the attachment of endpoint 15. -/
def arrived (p : Packet) : State :=
  (inState .running).modPort 87 fun q => { q with state := .up, fenced := false, rx := [p] }
def attached (p : Packet) : State := (inState .running).modSw fun w => { w with attachIn := [(15, [p])] }

/-- A queued copy of a packet. -/
def inQueue (p : Packet) (since : Nat) : QPkt :=
  { pkt := p, input := 0, colour := .unpoliced, hold := 0, since := since, queued := since, depth := 0, merged := [], doomed := false, transit := false }

/-- Queues of output 87, whose port is up with credit for one cell of every VC. -/
def queued (v : Nat) (q : List QPkt) (credit : Nat := 1) : State :=
  ((inState .running).modPort 87 fun p => { p with state := .up, fenced := false, credit := (List.range 8).map fun v => (v, credit) }).modSw
    fun w => { w with queues := [(8 * 87 + v, q)] }

theorem witness_PacketsCrossTheSwitch :
    let store := flow opStore (91 * 16) 0 1
    let home := fun op vc => flow op (90 * 16 + 15) 0 vc
    let at_ := fun (p : Packet) => (arrived p).sw.ready = true ∧ ((arrived p).port 87).rx = p :: []
    let enters := fun (p : Packet) => (attached p).sw.ready = true ∧ SMap.get [] (attached p).sw.attachIn 15 = p :: [] ∧
      attachCredit (attached p) 15 p = true ∧ gatherBlocked (attached p) 103 p = false ∧ attachLost (attached p) 15 = false ∧
      nextAttached (fun _ => true) (attached p) 103 [] [p] = some (p, [])
    let only := fun (p : Packet) (op : Nat) => nextAttached (fun x => x.hdr.op.toNat == op) (attached p) 103 [] [p] = some (p, [])
    let sound := fun (p : Packet) => p.hdr.hcrcOk = true ∧ p.hdr.len.toNat < 257 ∧ p.hdr.hop ≠ 3
    let fenced := (arrived store).modPort 87 fun q => { q with fenced := true }
    (at_ store ∧ at_ (flow opMcast 5 0 1) ∧ at_ (flow (opMcast + 0x80) (90 * 16) 0 4)) ∧
    ((103 : Fin 104).val = 88 + (15 : Fin 16).val ∧ enters store ∧ enters (flow opMcast 5 0 1) ∧ only (flow opMcast 5 0 1) opMcast ∧
      only (flow (opMcast + 0x80) (90 * 16) 0 4) (opMcast + 0x80)) ∧
    State.reset.placed = false ∧ (arrived store).placed = true ∧ { store with hdr := { store.hdr with hcrc := 0 } }.hdr.hcrcOk = false ∧
    (let p : Packet := { store with hdr := { store.hdr with len := 257 }.seal_ }; p.hdr.hcrcOk = true ∧ 257 ≤ p.hdr.len.toNat) ∧
    ((flow opStore (91 * 16) 0 1 3).hdr.hop = 3 ∧ (flow opStore (91 * 16) 0 1 3).hdr.hcrcOk = true) ∧
    (sound (flow opStore (91 * 16) 0 7) ∧ (flow opStore (91 * 16) 0 7).hdr.vc = 7) ∧
    (sound store ∧ store.hdr.vc ≠ 7 ∧ store.hdr.vc ≠ 0 ∧ (fenced.port 87).fenced = true) ∧
    (sound (home opMgmtRead 0) ∧ (home opMgmtRead 0).hdr.vc = 0 ∧
      (home opMgmtRead 0).hdr.dnode.toNat / 16 = (arrived store).glob.slot) ∧
    (isMgmtOp (home opMgmtRead 0).hdr.op.toNat = true ∧ isResp (home opMgmtRead 0).hdr = false ∧
      (arrived store).mgmt.held = [] ∧ (arrived store).mgmt.rx = [] ∧
      ((arrived store).modMgmt fun m => { m with held := [({ pkt := home opMgmtRead 0, listed := true }, 7)] }).mgmt.held ≠ []) ∧
    (((arrived store).port 87).fenced = false ∧ (flow opMcast 5 0 1).hdr.op.toNat = opMcast ∧ sound (flow opMcast 5 0 1)) ∧
    (sound (home (opMcast + 0x80) 4) ∧ (home (opMcast + 0x80) 4).hdr.op.toNat = opMcast + 0x80 ∧
      (home (opMcast + 0x80) 4).hdr.dnode.toNat / 16 = (arrived store).glob.slot) ∧
    (store.hdr.op.toNat ≠ opMcast ∧ store.hdr.op.toNat ≠ opMcast + 0x80 ∧ splitMerged 87 store (arrived store) = none) ∧
    (home opStore 1).hdr.dnode.toNat / 16 = (arrived store).glob.slot ∧
    (store.hdr.dnode.toNat / 16 ≠ (arrived store).glob.slot ∧ store.hdr.hop ≠ 2 ∧ (flow opStore (91 * 16) 0 3 2).hdr.hop = 2) ∧
    (let s := queued 0 [inQueue (home opMgmtRead 0) 0]; pickVc (dropDoomed 87 s) 87 = some 0) ∧
    (let s := queued 1 [inQueue store 0]; pickVc s 87 = some 1 ∧ pickVc (dropDoomed 87 s) 87 = some 1) ∧
    (let s := queued 1 [inQueue store 0] 0; pickVc (dropDoomed 87 s) 87 = none) := by
  refine ⟨?_, ?_, ?_, ?_, ?_, ?_, ?_, ?_, ?_, ?_, ?_, ?_, ?_, ?_, ?_, ?_, ?_, ?_⟩ <;> decide +kernel

theorem witness_SwitchTimersAndAudit :
    let store := flow opStore (91 * 16) 0 1
    let s := queued 7 [inQueue store 5, inQueue store 4] 0
    let sent := (queued 1 []).modPort 87 fun p => { p with retry := [{ seq := 1, type := .data, pstart := 0, pad := 0, data := [] }] }
    let bad := up.modSw fun w => { w with auditCell := 262143, suspects := [262143] }
    oldestIn s 87 7 = some (inQueue store 4) ∧ s.sw.queue 87 6 = [] ∧ s.live 87 = true ∧
    (s.sw.queue 87 7 = inQueue store 5 :: [inQueue store 4] ∧ hasCredit s 87 7 (cellsOf store) = false) ∧
    (sent.live 87 = true ∧ (sent.port 87).retry ≠ []) ∧ up.sw.ready = true ∧ up.sw.auditCell ∉ up.sw.suspects ∧
    bad.sw.auditCell ∈ bad.sw.suspects ∧ up.sw.auditCell + 1 ≠ 262144 ∧ bad.sw.auditCell + 1 = 262144 ∧
    SMap.wf QSample.reset up.sw.qsample = true ∧ 88 ≤ (103 : Fin 104).val ∧ (87 : Fin 104).val < 88 ∧
    inQueue store 5 ∈ s.sw.queue 87 7 ∧ up.sw.free ≠ 0 ∧ (up.modSw fun w => { w with free := 0 }).sw.free = 0 := by decide +kernel

theorem witness_LinksTrainAndComeUp :
    let s := fun (st : PortState) (l : Lane → Lane) => up.modPort 87 fun p => (p.modLane 3 l) |> fun p => { p with state := st }
    let lane := fun s => (s : State).port 87 |>.lane 3
    let f : TrainFrame := { lane := 3, portOff := 3, state := 2, vers := 7, precodeReq := false, preset := 0,
                            req := Taps.all .hold, stat := Taps.all .notUpdated, done := false }
    let asks := s .tap fun l => { l with ts := .tap, presetReq := 3 }
    let link := fun off => up.modPort 87 fun p => { p with state := .link, peerGmin := some [17, 24], peerPos := neighbour 41 21,
                                                           peerOff := off, idSent := true }
    let t : Taps Int := { m3 := 0, m2 := 0, m1 := 0, c0 := 64, p1 := 0 }
    (lane (s .detect fun l => { l with ts := .detect })).ts = .detect ∧ (lane (s .rate fun l => { l with ts := .rate })).ts = .rate ∧
    (lane (s .align fun l => { l with ts := .align })).ts = .align ∧ ((lane asks).ts = .tap ∧ asking (lane asks) ≠ []) ∧
    ((lane (s .cap fun l => { l with ts := .cap })).ts = .cap ∧ heardFrame 87 3 f.word (s .cap id) = some f ∧ f.lane = 3 ∧
      heardFrame 87 3 { f with lane := 2 }.word (s .cap id) = some { f with lane := 2 } ∧ { f with lane := 2 }.lane ≠ 3) ∧
    (heardFrame 87 3 0 (s .cap id) = none ∧ ((s .cap id).port 87).state ≠ .loop) ∧ (3 < 4 ∧ ∀ x ∈ [0, 3], x < 4) ∧
    ((lane up).ts ≠ .cap ∧ (lane up).ts ≠ .tap) ∧
    ((tapStep 3 3 true t).2 = .refused ∧ swing t ≤ 64) ∧ (asks.port 87).state = .tap ∧
    ((up.port 87).autoRetrain = true ∧ (up.port 87).state = .disabled) ∧ ((link 3).port 87).state = .link ∧
    (SMap.wf Port.reset (link 3).ports = true ∧ ((link 3).port 87).peerGmin = some [17, 24] ∧
      (link 3).glob.positionValid = true ∧ ((link 3).port 87).wiring = false ∧ ((link 3).port 87).idSent = true ∧
      wiringBad (link 3) 87 = false) ∧
    (SMap.wf Port.reset (link 2).ports = true ∧ wiringBad (link 2) 87 = true) ∧
    (7 < 8 ∧ (((link 3).port 87).state = .up ∨ ((link 3).port 87).state = .link)) := by decide +kernel

/-- A frame of a type with the data given, as the peer sends it. -/
def sentFrame (ty : FrameType) (seq : Nat) (data : List Byte := []) : Frame :=
  let f : Frame := { seq := BitVec.ofNat 16 seq, ack := 0, pstart := 31, pad := 30, cvc := 0, ccnt := 0, replay := 0, rsv := 0,
                     data := data, crc := 0 }
  { f with crc := frameCrc ty f }

theorem frame_good (ty : FrameType) (seq : Nat) (data : List Byte) :
    (sentFrame ty seq data).crc = frameCrc ty (sentFrame ty seq data) := rfl

theorem frame_bad (ty : FrameType) (seq : Nat) (data : List Byte) :
    let f := { sentFrame ty seq data with crc := (sentFrame ty seq data).crc + 1 }
    f.crc ≠ frameCrc ty f := by
  intro f
  have h : f.crc = frameCrc ty f + 1 := rfl
  rw [h]
  bv_omega

theorem witness_FramesReceivedInTurn :
    let loop := up.modPort 87 fun p => { p with state := .loop, loop := 3 }
    let live := up.modPort 87 fun p => { p with state := .up, rxSeq := 65535, retry := [{ seq := 9, type := .ctrl, pstart := 31, pad := 30, data := [] }] }
    let good := fun ty seq => (sentFrame ty seq).crc = frameCrc ty (sentFrame ty seq)
    let rx := fun ty seq => ((takeFields 87 (sentFrame ty seq) live).port 87).rxSeq
    ((loop.port 87).state = .loop ∧ (loop.port 87).loop = 3) ∧
    (live.live 87 = true ∧ ∃ f : Frame, f.crc ≠ frameCrc .data f) ∧
    (fecFails [(3, 16)] = true ∧ fecFails [(3, 15)] = false ∧
      ((live.modPort 87 fun p => { p with state := .link }).port 87).state = .link) ∧ (∀ ty seq, good ty seq) ∧
    (∀ ty ∈ [FrameType.data, .dataT, .ctrl], ty.sequenced = true ∧
      (sentFrame ty 0).seq.toNat = (rx ty 0 + 1) % 2 ^ 16 ∧ (sentFrame ty 1).seq.toNat ≠ (rx ty 1 + 1) % 2 ^ 16) ∧
    (live.port 87).retry ≠ [] ∧
    ((∀ x ∈ (live.port 87).retry.take 0, x.seq ≠ 9) ∧ ∀ x ∈ (live.port 87).retry, x.seq ≠ 8) ∧
    SMap.wf Port.reset live.ports = true ∧
    (((sentFrame .degrade 0 (leBytes 8 0)).data.head?.map fun b => b.toNat % 16) = some 0 ∧ (live.port 87).failed = 0) := by
  refine ⟨?_, ⟨?_, ⟨_, frame_bad .data 0 []⟩⟩, ?_, fun ty seq => frame_good ty seq [], ?_⟩ <;> decide +kernel

theorem witness_LanesFailAndReturn :
    let s := fun (st : PortState) (failed : Nat) (l : Lane → Lane) =>
      up.modPort 87 fun p => { p.modLane 3 l with state := st, failed := failed, degrading := true }
    let noted := fun (s : State) => (s.modPort 87 (Port.modLane 3 (noteCause .signal))).port 87
    let last := noted (s .up 7 id)
    let first := noted (s .link 0 id)
    let back := fun n => s .up 8 fun l => { l with ts := .active, tries := n }
    (last.state = .up ∧ bit last.failed 3 = false ∧ chooseLanes (last.failed ||| 2 ^ (3 : Fin 4).val ||| last.recalMask) = 0) ∧
    (first.state = .link ∧ bit first.failed 3 = false ∧ chooseLanes (first.failed ||| 2 ^ (3 : Fin 4).val ||| first.recalMask) ≠ 0) ∧
    (∀ st ∈ [PortState.detect, .cap, .rate, .tap, .align], (noted (s st 0 id)).state = st ∧ bit (noted (s st 0 id)).failed 3 = false) ∧
    bit (noted (s .up 8 id)).failed 3 = true ∧ (15 < 16 ∧ 3 < 4 ∧ bit (chooseLanes 7) 3 = true) ∧
    ((s .up 0 id).live 87 = true ∧ ((s .up 0 id).port 87).degrading = true) ∧
    ((back 2).live 87 = true ∧ bit ((back 2).port 87).failed 3 = true ∧ (((back 2).port 87).lane 3).ts ≠ .idle ∧
      (((back 2).port 87).lane 3).tries < 3 ∧ 3 ≤ (((back 3).port 87).lane 3).tries) ∧
    (up.live 87 = false ∧ (32 ≤ 32 ∧ false = false) ∧ SMap.wf Port.reset up.ports = true) ∧
    (let w := up.modPort 87 fun p => { p with state := .up, recalEn := true, recalWant := some (3, 5) };
      (w.port 87).recalWant = some (3, 5) ∧ w.live 87 = true ∧ (w.port 87).recalEn = true ∧ bit (w.port 87).failed 3 = false ∧
      chooseLanes ((w.port 87).failed ||| 2 ^ 3) ≠ 0 ∧ (w.port 87).recalLane = none ∧ (w.port 87).txChange = none ∧
      recalibrating w (bundlePorts (87 / 4)) = 0 ∧ recalibrating w (List.range 88) < 8 ∧
      foregroundBusy w 87 = false ∧ retryRoom w 87 = true) := by decide +kernel

theorem witness_HostLinksAndAperture :
    let down := up.modHost 1 fun h => { h with linkUp := false }
    let rung := up.modHost 1 fun h => { h with cq := [(255, { Cq.reset with en := true, irqEn := true, timer := 1, unsig := 1 })] }
    let vec := fun b => up.modHost 1 fun h => { h with msix := [(2047, { addr := 2 ^ 64 - 4, data := 2 ^ 32 - 1, masked := true, pending := b })] }
    let m := fun b => SMap.get Msix.reset ((vec b).host 1).msix 2047
    let opened := up.modHost 1 fun h => { h with memEn := true, memBase := 11 }
    let a := (opened.host 1).memBase * 2 ^ 36 + (2 ^ 36 - 16)
    (up.host 1).linkUp = true ∧ (clocksRun down = true ∧ (down.host 1).linkUp = false ∧ (down.host 1).perst = false) ∧
    (up.host 1).perst = false ∧ hostCan up 1 = true ∧ (SMap.wf HostPort.reset up.hosts = true ∧ 1 < 2) ∧
    (let q := (rung.host 1).cqAt 255; q.en = true ∧ q.irqEn = true ∧ q.timer ≠ 0 ∧ q.unsig ≠ 0 ∧ (rung.host 1).linkUp = true) ∧
    (hostCan (vec true) 1 = true ∧ (m true).addr < 2 ^ 64 ∧ (m true).data < 2 ^ 32 ∧ (m true).pending = true) ∧
    (m false).pending = false ∧ (hostCan up 1 = true ∧ apertureOpen up 1 = false) ∧
    (hostCan opened 1 = true ∧ apertureOpen opened 1 = true ∧ 2 ^ 36 - 16 + 16 ≤ 2 ^ 36 ∧
      ((pieces a 16).any fun p => !backed opened p.1) = false ∧ devBad opened false a 16 = false ∧
      (zeros 16).length = 16 ∧ devBad opened true a 16 = false) ∧
    devBad { opened with ue := [a / 64] } false a 16 = true := by decide +kernel

/-! ### Sillage, memory and the side band -/

/-- Sillage over the pool of frames 100 to `100 + n - 1`, with expansion port `x` of tier `t`, `g` GiB and context page 9 parked
in frame 0 there. -/
def pager (n : Nat) (x t g : Nat) (f : Sillage → Sillage := id) : State :=
  devWrite (9 * 32) (leBytes 32 (pgParked + 2 ^ 5 + x * 2 ^ 64))
    ((up.modXp x fun p => { p with linkUp := true, devReady := true, reported := g * 2 ^ 30, en := true, tier := t }).modSill
      fun l => f { l with en := true, first := 100, last := 99 + n, low := 8, high := 16, parkUsed := [(x, 0)], wearBase := 16, wearDelta := 1, cptLog2 := 4 })

/-- A move of context page 9 that waits for nothing more. -/
def move (k : MoveKind) : Move :=
  { id := 0, cpn := 9, kind := k, cls := 0, inFlight := true, frame := 100, dst := some (3, 1), crc := 0, left := 0, stat := 0,
    writing := true, dirtied := false, waiters := [] }

def moving (k : MoveKind) : State := pager 4096 3 1 1 fun l => { l with moves := [move k] }

/-- Context page 9 resident in frame 100. -/
def resident : State :=
  devWrite (9 * 32) (leBytes 32 pgResident) (pager 8 3 1 1 fun l => { l with frames := [(100, some { cpn := 9, age := 255, ref := true })] })

theorem crcStep_zero : crcBits 64 0x42F0E1EBA9EA3693 8 (0 ^^^ ((0 : Byte).toNat * 2 ^ (64 - 8))) = 0 := by decide +kernel

theorem crc64_zeros (n : Nat) : crc64 (zeros n) = 0 := by
  unfold crc64 crcOver zeros
  induction n with
  | zero => rfl
  | succ n ih => rw [List.replicate_succ, List.foldl_cons, crcStep_zero, ih]

theorem readN_empty (a n : Nat) : Memory.readN [] a n = zeros n := by
  induction n generalizing a with
  | zero => rfl
  | succ n ih => rw [Memory.readN, ih]; rfl

theorem witness_SillageMovesComplete :
    let s := moving (.pageIn false)
    (∀ k ∈ [MoveKind.pageIn false, .evict 0, .parked 2, .commit true, .detach, .rebuild],
      readyMove (moving k) 9 = some (move k) ∧ (move k).kind = k) ∧
    readyMove up 9 = none ∧ crc64 (parkRead s (copyAt s (move (.pageIn false)).cpn).1 (copyAt s (move (.pageIn false)).cpn).2) =
      cptFld s (move (.pageIn false)).cpn 191 128 ∧
    (wantsEviction resident = true ∧ (victim resident).isSome = true) ∧ wantsEviction up = false ∧
    (let d := pager 8 3 1 1; sillMayStart d = true ∧ freePark d 1 + (parkedMoves d 4).length < 512 ∧
      leastBy (fun c => cptFld d c 31 24 * 2 ^ 22 + c) (parkedPages d fun p => (d.xp p.1).tierOf p.1 == 1) = some 9) ∧
    (let w := devWrite (16 * 2 ^ 21 + 8) (leBytes 8 513) (pager 8 3 2 2);
      leastBy (·.1) (extentList w) = some (0, (3, 0)) ∧ leastBy (fun e => 2 ^ 48 - e.1) (extentList w) = some (513, (3, 512)) ∧
      sillMayStart w = true ∧ 512 * w.sill.wearDelta < 513 - 0 ∧
      parkedPages w (fun d => d.1 == 3 && 0 ≤ d.2 && d.2 < 0 + 512) = 9 :: [] ∧ extentFrame w (3, 512) = some (3, 512)) ∧
    (parkBad s 3 0 = false ∧ devBad s true (frameAddr 100) pageBytes = false ∧
      (let p := s.modXp 3 fun x => { x with poison := [parkAddr s 3 0 / 64] }; parkBad p 3 0 = true) ∧
      (let lost := { s with ue := [frameAddr 100 / 64] }; devBad lost false (frameAddr 100) pageBytes = true ∧
        devBad (s.modHbm (stackOf (frameAddr 100)) fun h => { h with fail := true }) true (frameAddr 100) pageBytes = true) ∧
      (move .rebuild).dst = some (3, 1) ∧ (move .rebuild).stat = stOk) := by
  refine ⟨by decide +kernel, by decide +kernel, ?_, by decide +kernel, by decide +kernel, by decide +kernel, by decide +kernel,
    by decide +kernel⟩
  have h : ((moving (.pageIn false)).xp (copyAt (moving (.pageIn false)) 9).1).mem = [] := by decide +kernel
  have z : cptFld (moving (.pageIn false)) 9 191 128 = 0 := by decide +kernel
  show crc64 (Memory.readN _ _ _) = cptFld (moving (.pageIn false)) 9 191 128
  rw [z]
  show crc64 (Memory.readN ((moving (.pageIn false)).xp (copyAt (moving (.pageIn false)) 9).1).mem _ _) = 0
  rw [h, readN_empty, crc64_zeros]

theorem witness_AgesScrubsAndExpansionLinks :
    let last := up.modHbm 11 fun h => { h with scrubPos := 2 ^ 30 - 1 }
    let bad := { up with ue := [granuleOfStack 11 0 / 64] }
    let down := up.modXp 3 fun x => { x with devReady := true }
    let fell := down.modXp 3 fun x => { x with fell := true }
    let m : Move := { move .detach with cpn := 9 }
    let waits := fell.modSill fun l => { l with moves := [m] }
    (resident.sill.en = true ∧ SMap.get none resident.sill.frames 100 = some { cpn := 9, age := 255, ref := true }) ∧
    up.sill.en = false ∧
    ((up.hbm 11).ready = true ∧ up.domain (hbmDom 11) ≠ .park ∧
      granuleBad (correctRead (granuleOfStack 11 0) 64 (countHbm 11 15 1 (countHbm 11 5 1 (scrubNext 11 up)))) (granuleOfStack 11 (up.hbm 11).scrubPos) = false) ∧
    granuleBad (correctRead (granuleOfStack 11 0) 64 (countHbm 11 15 1 (countHbm 11 5 1 (scrubNext 11 bad)))) (granuleOfStack 11 (bad.hbm 11).scrubPos) = true ∧
    (SMap.wf Hbm.reset up.hbms = true ∧ (up.hbm 11).scrubPos + 1 < 2 ^ 30 ∧ 2 ^ 30 ≤ (last.hbm 11).scrubPos + 1) ∧
    (11 < 12 ∧ granuleOfStack 11 5 = granuleOfStack 11 5) ∧ (8 * (2 ^ 18 - 1) < 2 ^ 21 ∧ 8 * (2 ^ 15 - 1) < 2 ^ 18 ∧ 8 * (2 ^ 21 - 1) < 2 ^ 24) ∧
    (up.boot.bistDone = true ∧ up.boot.thermtrip = false ∧ State.reset.boot.bistDone = false) ∧
    ((pager 8 3 1 1).xp 3).linkUp = true ∧
    (clocksRun down = true ∧ SMap.wf Xp.reset down.xps = true ∧ (down.xp 3).linkUp = false ∧ down.mgmt.up = true ∧ (down.xp 3).devReady = true ∧ (down.xp 3).fell = false) ∧
    (clearWaits fell 3 = false ∧ (fell.xp 3).linkUp = false ∧ (fell.xp 3).fell = true ∧
      fell.sill.moves.filter (fun m => (movePorts fell m).contains 3) = []) ∧
    (clearWaits waits 0 = false ∧ waits.sill.moves.filter (fun m => (movePorts waits m).contains 0) = [m] ∧
      ∀ x ∈ waits.sill.moves, x.id = m.id → x = m) := by
  decide +kernel

theorem witness_SidebandTargetCommands :
    let addressed := up.modSb fun b => { b with daddr := 127 }
    let fresh := { up with mgmt := Mgmt.reset, boot := { up.boot with state := 2 } }
    let d : Delivery := { steward := true, total := 1008, bytes := [] }
    let full : Delivery := { steward := true, total := 16, bytes := zeros 16 }
    let open_ := fun (d : Delivery) => fresh.modSb fun b => { b with delivery := some d }
    let n : Byte := 64
    (up.boot.out = true ∧ up.sb.daddr = 0 ∧ addressed.sb.daddr ≠ 0) ∧
    ((zeros 1024).length ≤ 1024 ∧ leAt (zeros 1024) 0 1 = 0 ∧ setsEid (zeros 1024) = none) ∧
    setsEid [0, 0x80, 1, 0, 254] = some 254 ∧ apertureBytes ≤ 2 ^ 26 ∧
    (2 ^ 26 - 8 < apertureBytes ∧ ((2 ^ 26 - 4) % 8 ≠ 0 ∨ (1 : Byte) = 0 ∨ 64 < (1 : Byte).toNat) ∧ 64 < (65 : Byte).toNat) ∧
    (2 ^ 26 - 512 + 8 * n.toNat ≤ apertureBytes ∧ (2 ^ 26 - 512) % 8 = 0 ∧ n ≠ 0 ∧ n.toNat ≤ 64) ∧
    ((quadsRead .sideband 1 0 up).2.1 = true ∧ (quadsRead .sideband 1 0x110000 up).2.1 = false) ∧
    ((1 : Byte).toNat ≤ 1 ∧ imageWanted up true = false ∧ imageWanted fresh true = true ∧ 16 * 2 ^ 20 ≤ imageMax true) ∧
    ((open_ d).sb.delivery = some d ∧ 0 = d.bytes.length ∧ 16 ≤ (zeros 1008).length ∧ (zeros 1008).length ≤ 1008 ∧
      0 + (zeros 1008).length ≤ d.total) ∧
    ((open_ full).sb.delivery = some full ∧ imageWanted (open_ full) full.steward = true ∧ full.bytes.length = full.total) ∧
    (1 : BitVec 16) ≠ 0 ∧ State.reset.boot.out = false := by decide +kernel

theorem witness_PldmAndSpdmAnswers :
    let off := { up with mgmt := Mgmt.reset }
    let failed := { up with sealCore := { up.sealCore with identFail := true } }
    let relay := (up.modMbox 2 fun b => { b with req := fitBytes 64 (0x02 :: zeros 15 ++ zeros 32) }).modMgmt fun m =>
      { m with relay := some (zeros 32) }
    (up.boot.out = true ∧ up.mgmt.up = true ∧ (zeros 1023).length < 1024) ∧ (off.boot.out = true ∧ off.mgmt.up = false) ∧
    ((zeros 32).length = 32 ∧ failed.sealCore.identFail = true ∧ failed.mgmt.up = true) ∧
    (up.sealCore.identFail = false ∧ up.sealCore.ident = true ∧ (up.mbox 2).busy = false ∧ relayed up (zeros 32) = false) ∧
    (relay.sealCore.ident = true ∧ (relay.mbox 2).busy = false ∧ relayed relay (zeros 32) = true ∧
      (relay.mbox 2).status = stOk) := by decide +kernel

/-! ### Cores -/

theorem get_all {α : Type} {P : α → Prop} (d : α) (m : SMap α) (hd : P d) (hm : ∀ e ∈ m, P e.2) (i : Nat) :
    P (SMap.get d m i) := by
  induction m with
  | nil => exact hd
  | cons e m ih =>
    obtain ⟨k, v⟩ := e
    rw [SMap.get_cons]
    split
    · exact hm (k, v) (.head _)
    · exact ih fun e he => hm e (.tail _ he)

/-- The canonical form of every map, in Bool. -/
def coreOk (x : Core) : Bool :=
  SMap.wf 0 x.s && SMap.wf 0 x.p && SMap.wf 0 x.v && SMap.wf [] x.a && SMap.wf [] x.w

def clusterOk (cl : Cluster) : Bool :=
  SMap.wf Core.reset cl.cores && SMap.wf Te.reset cl.tes && SMap.wf Barrier.reset cl.barriers && cl.cores.all fun x => coreOk x.2

def mapsOk (s : State) : Bool :=
  SMap.wf Port.reset s.ports && SMap.wf Epb.reset s.epbs && SMap.wf Cluster.reset s.clusters &&
  SMap.wf HostPort.reset s.hosts && SMap.wf Hbm.reset s.hbms && SMap.wf Xp.reset s.xps && SMap.wf Bucket.reset s.sw.shapers &&
  SMap.wf Bucket.reset s.sw.policers && SMap.wf QSample.reset s.sw.qsample && SMap.wf Mbox.reset s.sealCore.mbox &&
  (s.clusters.all fun cl => clusterOk cl.2) && (s.epbs.all fun b => SMap.wf LensDesc.reset b.2.lens) &&
  s.hosts.all fun h => SMap.wf Sq.reset h.2.sq

theorem mapsCanonical_of {s : State} (h : mapsOk s = true) : MapsCanonical s := by
  simp only [mapsOk, Bool.and_eq_true, List.all_eq_true] at h
  obtain ⟨⟨⟨⟨⟨⟨⟨⟨⟨⟨⟨⟨h1, h2⟩, h3⟩, h4⟩, h5⟩, h6⟩, h7⟩, h8⟩, h9⟩, h10⟩, hc⟩, hl⟩, hr⟩ := h
  have cl : ∀ c, clusterOk (s.cluster c) = true := get_all (P := fun y => clusterOk y = true) _ _ rfl hc
  have core : ∀ c k, coreOk (s.core c k) = true := fun c k =>
    get_all (P := fun y => coreOk y = true) _ _ rfl (by
      have := cl c
      simp only [clusterOk, Bool.and_eq_true, List.all_eq_true] at this
      exact this.2) k
  simp only [clusterOk, Bool.and_eq_true] at cl
  simp only [coreOk, Bool.and_eq_true] at core
  exact ⟨h1, h2, h3, h4, h5, h6, h7, h8, h9, h10, fun c => (cl c).1.1.1, fun c => (cl c).1.1.2, fun c => (cl c).1.2,
    fun c k => (core c k).1.1.1.1, fun c k => (core c k).1.1.1.2, fun c k => (core c k).1.1.2, fun c k => (core c k).1.2,
    fun c k => (core c k).2, get_all (P := fun b : Epb => SMap.wf LensDesc.reset b.lens = true) _ _ rfl hl,
    get_all (P := fun h : HostPort => SMap.wf Sq.reset h.sq = true) _ _ rfl hr⟩

theorem witness_MapsStayCanonical :
    let s := { up with pending := [.agePeriod], clusters := [(15, { Cluster.reset with cores := [(7, { Core.reset with s := [(63, 1)] })] })] }
    mapsOk s = true ∧ goes (step s) (fun t => mapsOk t) = true := by decide +kernel

/-- Core 7 of cluster 15 runs with this bundle at PC 0, s5 holding 64, predicate 7 all ones, and barrier 15 of its cluster as said. -/
def coreAt (w : Nat) (f : Core → Core := id) (b : Barrier := { mask := 0x80, arrived := 0, gen := 1 }) : State :=
  { inState .running with
    clusters := [(15, { Cluster.reset with
      cores := [(7, f { Core.reset with run := .running, imem := if w = 0 then [] else [(0, w)], s := [(5, 64)], p := [(7, allLanes)] })]
      barriers := [(15, b)] })] }

def issuesOk (s : State) (b : Bundle) : Bool :=
  (s.core 15 7).run == .running && look s 15 7 == .bundle b && !stalls s 15 7 b && syncReady (arriving 15 7 b s) 15 7 false b

theorem issues_of {s : State} {b : Bundle} (h : issuesOk s b = true) : Issues s 15 7 b := by
  simp only [issuesOk, Bool.and_eq_true, beq_iff_eq, Bool.not_eq_true'] at h
  exact ⟨h.1.1.1, h.1.1.2, h.1.2, h.2⟩

def heldOk (s : State) (b : Bundle) : Bool := (s.core 15 7).run == .held && look s 15 7 == .bundle b && !stalls s 15 7 b

theorem heldFree_of {s : State} {b : Bundle} (h : heldOk s b = true) : HeldFree s 15 7 b := by
  simp only [heldOk, Bool.and_eq_true, beq_iff_eq, Bool.not_eq_true'] at h
  exact ⟨h.1.1, h.1.2, h.2⟩

/-- Words of the four slots by the fields of R179. -/
def sw (o d a : Nat) (b c : Nat := 0) : Nat := o + d * 2 ^ 8 + a * 2 ^ 14 + b * 2 ^ 20 + c * 2 ^ 26
def si (o d a imm : Nat) : Nat := o + d * 2 ^ 8 + a * 2 ^ 14 + imm * 2 ^ 20
def vw (o d a : Nat) (b c : Nat := 0) : Nat := (o + d * 2 ^ 8 + a * 2 ^ 13 + b * 2 ^ 18 + c * 2 ^ 23) * 2 ^ 32
def vm (o d a imm : Nat) (pool : Nat := 0) : Nat := (o + d * 2 ^ 8 + a * 2 ^ 13 + imm * 2 ^ 19 + pool * 2 ^ 27) * 2 ^ 32
def mw (o t a : Nat) (rest : Nat := 0) : Nat := (o + t * 2 ^ 8 + a * 2 ^ 10 + rest) * 2 ^ 64
def xt (o q a : Nat) (rest : Nat := 0) : Nat := (o + q * 2 ^ 8 + a * 2 ^ 11 + rest) * 2 ^ 96
def xb (o bar : Nat) (rest : Nat := 0) : Nat := (o + bar * 2 ^ 10 + rest) * 2 ^ 96

/-- Words of the S slot, written out from R179 and R189, and the operations they encode. -/
def sWords : List (Nat × SOp) :=
  [(0, .nop), (sw 0x01 1 2 3, .alu .add 1 2 3), (sw 0x0E 63 62 61, .alu .maxu 63 62 61), (sw 0x0F 1 2 3, .mul .mul 1 2 3),
   (sw 0x10 1 2 3, .mul .mulhu 1 2 3), (sw 0x11 1 2 3, .mul .mulh 1 2 3), (sw 0x12 1 2 3 63, .sel 1 2 3 63),
   (si 0x20 1 2 0xFFF, .alui .add 1 2 0xFFF), (si 0x28 1 2 0x800, .alui .sltu 1 2 0x800),
   (0x2C + 1 * 2 ^ 8 + 3 * 2 ^ 14 + 0xFFFF * 2 ^ 16, .mov16 false 1 3 0xFFFF), (0x2D + 1 * 2 ^ 8 + 0xFFFF * 2 ^ 16, .mov16 true 1 0 0xFFFF),
   (si 0x36 1 5 8, .ld false 8 false 1 5 8), (si 0x38 1 5 0xFFF, .ld true 1 true 1 5 0xFFF), (si 0x40 1 5 0x7FF, .st false 1 1 5 0x7FF),
   (si 0x47 1 5 0xFF8, .st true 8 1 5 0xFF8), (sw 0x53 1 2 3 4, .fp .fma 1 2 3 4), (sw 0x58 1 2 3, .fcmp .le 1 2 3),
   (sw 0x59 1 2, .fcvtI 1 2), (sw 0x5A 1 2, .icvtF 1 2), (0x60 + 7 * 2 ^ 8 + 2 * 2 ^ 17, .pset 7 2),
   (0x61 + 7 * 2 ^ 11 + 1 * 2 ^ 17, .pget 1 7), (0x65 + 1 * 2 ^ 8 + 2 * 2 ^ 11 + 7 * 2 ^ 14, .plog .andn 1 2 7),
   (0x66 + 7 * 2 ^ 11 + 1 * 2 ^ 17, .pcnt 1 7), (si 0x70 1 2 5, .br .eq 1 2 5), (si 0x70 1 2 0xFFF, .br .eq 1 2 0xFFF),
   (si 0x71 1 2 5, .br .ne 1 2 5), (si 0x76 7 0 5, .bp false 7 5), (si 0x77 7 0 5, .bp true 7 5), (0x78 + 16383 * 2 ^ 14, .j 16383),
   (0x79 + 1 * 2 ^ 8 + 16383 * 2 ^ 14, .jal 1 16383), (sw 0x7A 0 5, .jr 5), (si 0x7C 1 0 0x12F, .csRd 1 0x12F),
   (si 0x7D 0 2 1, .csWr 2 1), (0x7F, .halt)]

/-- Words of the V slot (R193, R194). -/
def vWords : List (Nat × VOp) :=
  [(vw 0x01 1 2 3, .int .add 1 2 3), (vw 0x09 31 30 29, .int .sra 31 30 29), (vw 0x0D 1 2 3, .imin .maxu 1 2 3),
   (vw 0x12 7 2 3, .icmp .ltu 7 2 3), (vw 0x13 1 2 3 7, .sel 1 2 3 7), (vw 0x23 1 2 3 4, .fp .fma 1 2 3 4),
   (vw 0x24 1 2 3, .fmin false 1 2 3), (vw 0x25 1 2 3, .fmin true 1 2 3), (vw 0x28 7 2 3, .fcmp .le 7 2 3),
   (vw 0x29 1 2 3, .div 1 2 3), (vw 0x2A 1 2, .sqrt 1 2), (vw 0x2B 1 2, .exp 1 2), (vw 0x2C 1 2 3, .expd 1 2 3),
   (vw 0x30 1 2, .fcvtI 1 2), (vw 0x31 1 2, .icvtF 1 2), (vw 0x32 1 2, .narrow false false 1 2), (vw 0x33 1 2, .narrow false true 1 2),
   (vw 0x34 1 2, .narrow true false 1 2), (vw 0x35 1 2, .narrow true true 1 2), (vw 0x36 1 2, .widen false 1 2),
   (vw 0x37 1 2, .widen true 1 2), (vw 0x40 1 2, .red .sum 1 2), (vw 0x42 1 2, .red .min 1 2), (vw 0x48 1 2 3, .tmax 1 2 3),
   (vw 0x49 0 2 3, .texp 2 3), (vw 0x4A 1 0 3, .tsum 1 3), (vw 0x4B 1 0 (3 + 4 * 6), .tget 1 3 6), (vw 0x4C 0 1 (3 + 4 * 6), .tput 1 3 6),
   (vm 0x50 1 5 0xFF, .ld false 1 5 0xFF), (vm 0x50 1 5 0x7F 1, .ld true 1 5 0x7F), (vm 0x51 1 5 0x7F 1, .ldbc true 1 5 0x7F),
   (vm 0x51 1 5 0xFF, .ldbc false 1 5 0xFF), (vm 0x52 1 5 0xFF, .st false 1 5 0xFF), (vm 0x52 1 5 0x7F 1, .st true 1 5 0x7F),
   (vm 0x58 1 5 0, .mov 1 5), ((0x59 + 1 * 2 ^ 8 + 2 * 2 ^ 14 + 63 * 2 ^ 19) * 2 ^ 32, .ext 1 2 63)]

/-- Words of the M slot (R195 to R197). -/
def mWords : List (Nat × MOp) :=
  [(mw 0x10 1 5 (5 * 2 ^ 16), .mma .e4m3 1 5 5 0 false false), (mw 0x19 3 0 (5 * 2 ^ 22 + 2 ^ 28), .mma .mxfp4 3 0 0 5 true false),
   (mw 0x10 2 5 (5 * 2 ^ 16 + 2 ^ 29), .mma .e4m3 2 5 5 0 false true), (mw 0x20 1 31, .mscale 1 31),
   (mw 0x21 1 5 (1 * 2 ^ 16 + 2 ^ 20 + 2 ^ 21 + 15 * 2 ^ 22), .mst 1 5 1 true (some 15)), (mw 0x22 1 5, .wst 1 5 none),
   (mw 0x23 1 5, .wld 1 5), (mw 0x24 1 0 (3 * 2 ^ 26), .wcvt 1 3 none)]

/-- Words of the X slot (R198 to R204). -/
def xWords : List (Nat × XOp) :=
  [(xt 0x01 7 5, .issue 7 5 false), (xt 0x02 7 5 (2 ^ 17 + 15 * 2 ^ 18), .arm 7 5 15 true), (xt 0x03 0 1 (2 ^ 17), .cnt 1 8),
   (xt 0x04 7 1, .err 1 7), (xt 0x05 7 1, .wait 1 7), (xt 0x06 7 5 (14 * 2 ^ 22), .xissue 7 5 14 false), (xb 0x10 0 (3 * 2 ^ 8), .rel 3),
   (xb 0x11 0 (3 * 2 ^ 8), .acq 3), (xb 0x18 15 (5 * 2 ^ 14), .barCfg 15 5), (xb 0x19 15, .barArrive 15), (xb 0x1B 15, .barSync 15),
   ((0x20 + 5 * 2 ^ 8 + 1 * 2 ^ 14 + 2 * 2 ^ 20 + 7 * 2 ^ 26) * 2 ^ 96, .fwait 5 1 2 7 0 false), (xb 0x28 0 (6 * 2 ^ 20), .wake 6),
   (xb 0x29 0 (5 * 2 ^ 14), .watch 5)]

def decodesTo (n : Nat) (b : Bundle) : Bool :=
  match decodeBundle n with
  | .ok b' => b' == b
  | .error _ => false

theorem test_decode_every_operation :
    (∀ p ∈ sWords, decodesTo p.1 (soleS p.2) = true) ∧ (∀ p ∈ vWords, decodesTo p.1 (soleV p.2 none) = true) ∧
    decodesTo (vw 0x01 1 2 3 + (2 ^ 31 + 7 * 2 ^ 28) * 2 ^ 32) (soleV (.int .add 1 2 3) (some 7)) = true ∧
    (∀ p ∈ mWords, decodesTo p.1 (soleM p.2) = true) ∧ (∀ p ∈ xWords, decodesTo p.1 (soleX p.2) = true) ∧
    decodesTo (0x7B + 0xFFF * 2 ^ 20) (soleS (.trap 0xFFF)) = true ∧ decodesTo 0x7E (soleS .wait) = true ∧
    decodesTo (xb 0x1A 15) (soleX (.barWait 15)) = true := by decide +kernel

/-- The worked example at the end of chapter 06: its bundle, and a bundle whose X slot breaks ALIGN before BOUNDS. -/
theorem test_worked_example :
    decodesTo 0x0004C202001551100398632300159620
      { s := .alui .add 22 22 1, v := some { op := .fp .fma 3 3 6 7, pred := none }, m := some (.mma .e4m3 1 20 21 0 false false),
        x := some (.arm 2 24 1 false) } = true ∧
    look (coreAt 0x0004C202001551100398632300159620 fun x => { x with s := [(24, 0x1FFFE0)] }) 15 7 = .stop (some 3) 0 0x04 0 ∧
    look (coreAt 0x0004C202001551100398632300159620 fun x => { x with s := [(24, 0x200000)] }) 15 7 = .stop (some 3) 0 0x03 0 := by
  decide +kernel

theorem witness_EveryRowIssuesItsBundle :
    (∀ p ∈ sWords, issuesOk (coreAt p.1) (soleS p.2) = true) ∧ (∀ p ∈ vWords, issuesOk (coreAt p.1) (soleV p.2 none) = true) ∧
    (∀ p ∈ mWords, issuesOk (coreAt p.1) (soleM p.2) = true) ∧ (∀ p ∈ xWords, issuesOk (coreAt p.1) (soleX p.2) = true) ∧
    issuesOk (coreAt 0x7E) (soleS .wait) = true ∧
    issuesOk (coreAt (xb 0x1A 15) fun x => { x with arrival := [(15, 1)] }) (soleX (.barWait 15)) = true ∧
    (let b := soleX (.fwait 5 1 2 7 0 false)
     let h := fun (f : Core → Core) => coreAt ((0x20 + 5 * 2 ^ 8 + 1 * 2 ^ 14 + 2 * 2 ^ 20 + 7 * 2 ^ 26) * 2 ^ 96) fun x =>
       f { x with run := .held, s := [(2, 9), (5, 64)] };
      heldOk (h id) b = true ∧ flagMet (h id) 15 7 false 64 0 0 = true ∧ ((h id).core 15 7).sreg 2 ≠ 0 ∧
      heldOk (coreAt (sw 1 1 2 3) fun x => { x with run := .held }) (soleS (.alu .add 1 2 3)) = true ∧
      syncReady (arriving 15 7 (soleS (.alu .add 1 2 3)) (coreAt (sw 1 1 2 3))) 15 7 false (soleS (.alu .add 1 2 3)) = true) := by
  decide +kernel

theorem witness_BundlesStopOrAreHeld :
    let at_ := fun (w pc : Nat) (f : Core → Core) => coreAt 0 fun x => f { x with imem := [(pc, w)], pc := pc }
    let two := si 0x20 1 2 3 + vw 0x59 0 0 + 1 * 2 ^ 40
    let slow := fun w => coreAt (w + xt 0x05 7 1) fun x => { x with s := [(1, 1), (5, 64)] }
    let stopsAt := fun (s : State) slot pc cause code => look s 15 7 = .stop slot pc cause code
    (((coreAt 0).modCore 15 7 fun x => { x with run := .halted }).core 15 7).run ≠ .running ∧
    stopsAt (at_ 0 16384 id) none 16383 causeIfetch 0 ∧
    stopsAt (at_ 0 16383 fun x => { x with imemBad := [16383] }) none 16383 causeParity 0 ∧
    stopsAt (at_ 0 16383 fun x => { x with regBad := true }) none 16383 causeParity 0 ∧
    stopsAt (at_ 0x80 16383 id) (some 0) 16383 causeIllegalOp 0 ∧
    (illegalBundle { s := .alui .add 1 2 3, v := some { op := .ext 1 0 0, pred := none }, m := none, x := none } = true ∧
      decodesTo two { s := .alui .add 1 2 3, v := some { op := .ext 1 0 0, pred := none }, m := none, x := none } = true ∧
      stopsAt (at_ two 16383 id) none 16383 causeIllegalBundle 0) ∧
    stopsAt (at_ (0x7B + 0xFFF * 2 ^ 20) 16383 id) (some 0) 16383 causeTrap 0xFFF ∧
    bundleFault (at_ (si 0x36 1 5 1) 0 id) 15 7 (soleS (.ld false 8 false 1 5 1)) = some (0, { cause := causeAlign, code := 0 }) ∧
    (bundleFault (coreAt (sw 1 1 2 3)) 15 7 (soleS (.alu .add 1 2 3)) = none ∧
      parityFault (coreAt (sw 1 1 2 3)) 15 7 (soleS (.alu .add 1 2 3)) = none) ∧
    (mapsOk (coreAt 0) = true ∧ ((coreAt 0).core 15 7).run = .running ∧ ((coreAt 0).core 15 7).matrix = [] ∧
      causeAlign ≠ causeParity) ∧
    (∀ p ∈ [(sw 1 1 2 3, ({ s := .alu .add 1 2 3, v := none, m := none, x := some (.wait 1 7) } : Bundle)),
        (mw 0x21 1 5, { s := .nop, v := none, m := some (.mst 1 5 0 false none), x := some (.wait 1 7) }), (0, soleX (.wait 1 7))],
      ((slow p.1).core 15 7).run = .running ∧ look (slow p.1) 15 7 = .bundle p.2 ∧ stallCause (slow p.1) 15 7 p.2 = some 16) ∧
    (let h := (slow 0).modCore 15 7 fun x => { x with run := .held };
      look h 15 7 = .bundle (soleX (.wait 1 7)) ∧ (h.core 15 7).run = .held ∧ stallCause h 15 7 (soleX (.wait 1 7)) = some 16) ∧
    (let h := coreAt (xb 0x1B 15) fun x => { x with run := .held };
      (h.core 15 7).run = .held ∧ look h 15 7 = .bundle (soleX (.barSync 15)) ∧ stalls h 15 7 (soleX (.barSync 15)) = false ∧
        syncReady (arriving 15 7 (soleX (.barSync 15)) h) 15 7 false (soleX (.barSync 15)) = true) ∧
    (let b := soleX (.fwait 5 1 2 7 0 false)
     let h := fun (v : Nat) => coreAt ((0x20 + 5 * 2 ^ 8 + 1 * 2 ^ 14 + 2 * 2 ^ 20 + 7 * 2 ^ 26) * 2 ^ 96) fun x =>
       { x with run := .held, s := [(2, 9), (5, 64)], spm := if v = 0 then [] else [(64, 1)] };
      ((h 0).core 15 7).run = .held ∧ look (h 0) 15 7 = .bundle b ∧ stalls (h 0) 15 7 b = false ∧ mapsOk (h 0) = true ∧
        flagMet (h 0) 15 7 false 64 0 0 = true ∧ flagMet (h 1) 15 7 false 64 0 0 = false ∧ ((h 1).core 15 7).sreg 2 ≠ 0 ∧
        look (h 1) 15 7 = .bundle b ∧
        (let r := (h 1).modCore 15 7 fun x => { x with run := .running };
          (r.core 15 7).run = .running ∧ look r 15 7 = .bundle b ∧ stalls r 15 7 b = false ∧
          flagMet r 15 7 false 64 0 0 = false)) := by decide +kernel

theorem witness_ScalarOperationsCompute :
    (∀ p ∈ sWords, mapsOk (coreAt p.1) = true ∧ issuesOk (coreAt p.1) (soleS p.2) = true) ∧
    (let x := (coreAt 0).core 15 7;
      branchTo x (.br .ne 1 2 5) = none ∧ branchTo x (.br .eq 1 2 5) = some 5 ∧ branchTo x (.br .eq 1 2 0xFFF) = some (-1) ∧
      branchTo x (.bp false 7 5) = some 5 ∧ branchTo x (.bp true 7 5) = none ∧ branchTo x (.j 16383) = some 16383 ∧
      x.matrix = [] ∧ x.wake = false ∧ x.cmode = 0) ∧
    (let far_ := coreAt (sw 0x7A 0 5) fun x => { x with s := [(5, 16384)] };
      issuesOk far_ (soleS (.jr 5)) = true ∧ branchTo (far_.core 15 7) (.jr 5) = some 16384) ∧
    (let woken := coreAt 0x7E fun x => { x with wake := true };
      mapsOk woken = true ∧ issuesOk woken (soleS .wait) = true ∧ (woken.core 15 7).wake = true) ∧
    (issuesOk (coreAt 0x7E) (soleS .wait) = true ∧ ((coreAt 0x7E).core 15 7).wake = false) ∧
    (let deep := coreAt 0x7E fun x => { x with cmode := 2 };
      mapsOk deep = true ∧ issuesOk deep (soleS .wait) = true ∧ (deep.core 15 7).cmode = 2 ∧ (deep.core 15 7).matrix = [] ∧
      deep.domain (coreDom 15 7) = .full) ∧
    (let t := coreAt (0x7B + 0xFFF * 2 ^ 20);
      (t.core 15 7).run = .running ∧ (t.core 15 7).pc < imemBundles ∧ (t.core 15 7).pc ∉ (t.core 15 7).imemBad ∧
      decodesTo (SMap.get 0 (t.core 15 7).imem 0) (soleS (.trap 0xFFF)) = true ∧ illegalBundle (soleS (.trap 0xFFF)) = false) := by
  decide +kernel

theorem witness_ScalarRegisterZero :
    SMap.wf 0 ([(63, 1)] : SMap Nat) = true ∧ (63 : Nat) ≠ 0 ∧ (1 : Nat) ≠ 63 ∧ SMap.wf 0 Core.reset.p = true ∧
    (SMap.wf 0 Core.reset.v = true ∧ 63 < 64) ∧ bit allLanes 63 = true ∧ bit 1 63 = false ∧ (30 : Nat) ≠ 31 := by decide +kernel

theorem witness_VectorOperationsCompute :
    (∀ p ∈ vWords, mapsOk (coreAt p.1) = true ∧ issuesOk (coreAt p.1) (soleV p.2 none) = true) ∧
    issuesOk (coreAt (vw 0x01 1 2 3 + (2 ^ 31 + 7 * 2 ^ 28) * 2 ^ 32)) (soleV (.int .add 1 2 3) (some 7)) = true ∧
    (bit ((coreAt 0).core 15 7 |>.mask none) 63 = true ∧ bit ((coreAt 0).core 15 7 |>.mask (some 0)) 63 = false) ∧
    (let a := vaddr ((coreAt 0).core 15 7) 5 0xFF 64; a = 0 ∧ a + 256 ≤ 256) := by decide +kernel

theorem witness_MatrixAndSyncOperations :
    let m : MxOp := { acc := some (3, [(0, 1)]), wide := none, spm := none, token := some 15, range := false, sat := true, nan := false,
                      counts := [] }
    (∀ p ∈ mWords, mapsOk (coreAt p.1) = true ∧ issuesOk (coreAt p.1) (soleM p.2) = true) ∧
    (∀ r ∈ [CoreRun.running, .held, .halted, .waking, .stopping 5 .halt],
      let s := coreAt 0 fun x => { x with matrix := [m], run := r };
      mapsOk s = true ∧ (s.core 15 7).matrix = m :: [] ∧ (s.core 15 7).run = r) ∧
    (∀ p ∈ xWords, mapsOk (coreAt p.1) = true ∧ issuesOk (coreAt p.1) (soleX p.2) = true) ∧
    (let y := ((coreAt 0).cluster 15).barrier 15; y.arrived + 2 ^ (7 : Fin 8).val = y.mask) ∧
    (let s := coreAt (xb 0x19 15) id { mask := 0x81, arrived := 0, gen := 1 };
      mapsOk s = true ∧ issuesOk s (soleX (.barArrive 15)) = true ∧
      ¬ ((s.cluster 15).barrier 15).arrived + 2 ^ (7 : Fin 8).val = ((s.cluster 15).barrier 15).mask) ∧
    (let s := coreAt (xb 0x1A 15) fun x => { x with arrival := [(15, 1)] };
      mapsOk s = true ∧ issuesOk s (soleX (.barWait 15)) = true) ∧
    (let s := fun r => (coreAt (xb 0x28 0 (6 * 2 ^ 20))).modCore 15 6 fun x => { x with run := r };
      mapsOk (s .running) = true ∧ issuesOk (s .running) (soleX (.wake 6)) = true ∧ ((s .running).core 15 6).run = .running ∧
      issuesOk (s (.waiting 1)) (soleX (.wake 6)) = true ∧ ((s (.waiting 1)).core 15 6).run = .waiting 1 ∧
      (s (.waiting 1)).domain (coreDom 15 6) = .full) ∧
    (SMap.wf [] Core.reset.a = true ∧ m.acc = some (3, [(0, 1)]) ∧ (2 : Nat) ≠ 3) ∧ m.spm = none ∧ { m with acc := none }.acc = none := by
  decide +kernel

theorem witness_CoreCommandsLeaveTheRestAlone :
    (exec (.intAlu 15 7) (coreAt (sw 1 1 2 3)) = .next (after (exec (.intAlu 15 7) (coreAt (sw 1 1 2 3))))) ∧
    (0 : Nat) ≠ (15 : Fin 16).val := ⟨rfl, by decide⟩

theorem witness_LandsOfPortsAndSupplies :
    (0 < 88 ∧ 87 < 88 ∧ 3 < 4 ∧ lanePin 1 = some .txp ∧ lanePin 5 = some .rxn) ∧ (blocks ≠ [] ∧ 15 < 16) ∧ singleLands ≠ [] ∧ pairLands ≠ [] := by decide +kernel

theorem witness_PacketBytesReadBack :
    let p := request opStore 0 (zeros 4096)
    let n := request opLoad 0 []
    (p.payload.length = p.hdr.payLen ∧ p.hdr.len ≠ 0) ∧ (n.payload.length = n.hdr.payLen ∧ n.hdr.len = 0 ∧ n.trailer = 0) := by
  decide +kernel

/-- The example of R494: port 0's lands in side 0's strip and block, by hand from the rules. -/
theorem test_lands_example :
    [land 86 12, land 87 12, land 88 12, land 89 12, land 90 12, land 91 12] =
      [.vss, .fabric 81 .txp, .fabric 81 .txn, .vss, .fabric 81 .rxp, .fabric 81 .rxn] := by decide +kernel

/-- Bundle 8 of position 41 and bundle 5 of position 45 face each other (chapter 01's worked example). -/
theorem test_grid_example :
    neighbour 41 8 = 45 ∧ neighbour 45 5 = 41 ∧ bundlePorts (17 : Nat) = [68, 69, 70, 71] ∧ neighbour 41 17 = 89 ∧
      neighbour 89 14 = 41 := by decide +kernel

/-- Grade code 2 with one core of cluster 5 failed: cluster 5 and cluster 15 are off. -/
theorem test_grade_example :
    enabledOf 2 (2 ^ 128 - 1 - 2 ^ 43) = [0, 1, 2, 3, 4, 6, 7, 8, 9, 10, 11, 12, 13, 14] ∧
      enabledOf 2 (2 ^ 128 - 1) = List.range 14 := by decide +kernel

end Sys2Proof.Tests
end

section
/-! PROOFS. How a transfer engine starts and runs its commands, moves the bytes of a COPY, and reports what has ended. -/
namespace Sys2Proof.Machine

/-! ### Starting a command -/

/-- The next command of a TE, free to start, starts where the row serves its opcode. -/
theorem startIf_of_next {s : State} {c t oc : Nat} {q : TeCmd} (h : TeNext s c t oc q) (ok : TeCmd → Bool)
    (hok : ok q = true) (host : List Byte) : startIf ok c t host s = startCmd c t q host s := by
  simp [startIf, h.next, h.queued, h.may, hok]

theorem isOp_of_next {s : State} {c t oc : Nat} {q : TeCmd} (h : TeNext s c t oc q) : isOp oc q = true :=
  beq_iff_eq.mpr h.opcode

/-- A TE without a command to start does nothing on a start row. -/
theorem startIf_none {s : State} {c t : Nat} (h : nextCmd (s.te c t) = none) (ok : TeCmd → Bool) (host : List Byte) :
    startIf ok c t host s = s := by
  simp [startIf, h]

/-- A command whose verdict stands ends with it; a STATE_REJECT alone is not counted (R363, R364). -/
theorem startCmd_of_verdict {q : TeCmd} {st : Nat} (h : q.verdict = some st) (c t : Nat) (host : List Byte) (s : State) :
    startCmd c t q host s = failCmd c t q.id st q.failAddr q.failDpa q.failOff
      (if st = stStateReject then opened c t q host s else begun c t q host s) := by
  have first (o : Option Nat) : (q.verdict <|> o) = some st := by rw [h]; rfl
  simp only [startCmd, first, Option.some.injEq]
  rfl

/-- A command that passes checks 1 to 3 goes on to the checks of its ranges (R363). -/
theorem startCmd_of_passes {s : State} {c t oc : Nat} {q : TeCmd} {host : List Byte} (h : TePasses s c t oc q host) :
    startCmd c t q host s = proceed c t q.id (ready c t q host s) := by
  have third := h.third
  unfold opened at third
  unfold startCmd ready begun opened
  cases ho : q.origin with
  | sill m => simp [h.verdict]
  | ring p r i g =>
    have := third (by simp [ho])
    simp only [ho] at this
    simp [h.verdict, this]
  | core cc k n x w g =>
    have := third (by simp [ho])
    simp only [ho] at this
    simp [h.verdict, this]

/-! ### Running a command -/

/-- A command whose ranges pass runs by its opcode. -/
theorem proceed_of_runs {s : State} {c t oc : Nat} {q : TeCmd} {host : List Byte} {r : TeCmd} {u : State}
    (h : TeRuns s c t oc q host r u) : proceed c t q.id (ready c t q host s) =
      if oc = 0 then endCmd c t q.id stOk u
      else if oc = ocCopy ∨ oc = ocVerify then runLocal c t r u
      else if oc = ocPrefetch then runPrefetch c t r u
      else if oc = ocCommit then advanceCommitGo c t q.id (commitCount q.entry + 1) u
      else pumpTe c t (runRemote c t r u) := by
  obtain ⟨a, ha, he, hc, rfl, rfl⟩ := h.found
  simp [proceed, ha, hc, he, h.passes.next.opcode]

theorem startIf_of_runs {s : State} {c t oc : Nat} {q : TeCmd} {host : List Byte} {r : TeCmd} {u : State}
    (h : TeRuns s c t oc q host r u) :
    startIf (isOp oc) c t host s = proceed c t q.id (ready c t q host s) := by
  rw [startIf_of_next h.passes.next _ (isOp_of_next h.passes.next), startCmd_of_passes h.passes]

/-- COPY and VERIFY run locally (R237, R369). -/
theorem startIf_local {s : State} {c t oc : Nat} {q : TeCmd} {host : List Byte} {r : TeCmd} {u : State}
    (h : TeRuns s c t oc q host r u) (local_ : oc = ocCopy ∨ oc = ocVerify) :
    startIf (isOp oc) c t host s = runLocal c t r u := by
  have : oc ≠ 0 := by rcases local_ with rfl | rfl <;> decide
  rw [startIf_of_runs h, proceed_of_runs h, if_neg this, if_pos local_]

/-- A remote command builds its packets, and the TE sends what it may (R83, R84). -/
theorem startIf_remote {s : State} {c t oc : Nat} {q : TeCmd} {host : List Byte} {r : TeCmd} {u : State}
    (h : TeRuns s c t oc q host r u) (remote : ocPut ≤ oc ∧ oc ≤ ocAtomic) :
    startIf (isOp oc) c t host s = pumpTe c t (runRemote c t r u) := by
  have other : oc ≠ 0 ∧ ¬(oc = ocCopy ∨ oc = ocVerify) ∧ oc ≠ ocPrefetch ∧ oc ≠ ocCommit := by
    simp only [ocPut, ocAtomic, ocCopy, ocVerify, ocPrefetch, ocCommit] at remote ⊢
    omega
  obtain ⟨nop, local_, prefetch, commit⟩ := other
  rw [startIf_of_runs h, proceed_of_runs h, if_neg nop, if_neg local_, if_neg prefetch, if_neg commit]

theorem startIf_prefetch {s : State} {c t : Nat} {q : TeCmd} {host : List Byte} {r : TeCmd} {u : State}
    (h : TeRuns s c t ocPrefetch q host r u) :
    startIf (isOp ocPrefetch) c t host s = runPrefetch c t r u := by
  rw [startIf_of_runs h, proceed_of_runs h]
  rfl

theorem startIf_commit {s : State} {c t : Nat} {q : TeCmd} {host : List Byte} {r : TeCmd} {u : State}
    (h : TeRuns s c t ocCommit q host r u) :
    startIf (isOp ocCommit) c t host s = advanceCommitGo c t q.id (commitCount q.entry + 1) u := by
  rw [startIf_of_runs h, proceed_of_runs h]
  rfl

theorem startIf_nop {s : State} {c t : Nat} {q : TeCmd} {host : List Byte} {r : TeCmd} {u : State}
    (h : TeRuns s c t 0 q host r u) : startIf (isOp 0) c t host s = endCmd c t q.id stOk u := by
  rw [startIf_of_runs h, proceed_of_runs h]
  rfl

/-- An armed command whose token is not zero takes one token and starts (R169). -/
theorem startArmed_of_token {s : State} {c t tok cc k n : Nat} {x w : Bool} {g : Nat} {q : TeCmd}
    (next : nextCmd (s.te c t) = some q) (armed : q.phase = .armed tok) (origin : q.origin = .core cc k n x w g)
    (token : SMap.get 0 (s.core cc k).tokens tok ≠ 0) (may : mayStart s (s.te c t) q = true) (host : List Byte) :
    startArmed c t host s = startCmd c t q host
      (s.modCore cc k fun y => { y with tokens := SMap.upd 0 y.tokens tok (· - 1) }) := by
  simp [startArmed, next, armed, origin, token, may]

/-- Settles O30: each row starts the next command through `startIf`, and what runs is decided by its opcode alone. -/
theorem dataCommandsStartAndRun : Obligations.DataCommandsStartAndRun := by
  unfold Obligations.DataCommandsStartAndRun
  refine ⟨?_, ?_, ?_, ?_, ?_, ?_⟩
  · intro s c t q host r u
    exact ⟨fun h => congrArg _ (startIf_local h (.inl rfl)), fun h => congrArg _ (startIf_local h (.inr rfl)),
      fun h => congrArg _ (startIf_remote h (by decide)), fun h => congrArg _ (startIf_remote h (by decide)),
      fun h => congrArg _ (startIf_remote h (by decide)), fun h => congrArg _ (startIf_remote h (by decide)),
      fun h => congrArg _ (startIf_remote h (by decide))⟩
  · intro s c t q r u
    exact ⟨fun h => congrArg _ (startIf_remote h (by decide)), fun h => congrArg _ (startIf_remote h (by decide)),
      fun h => congrArg _ (startIf_prefetch h), fun h => congrArg _ (startIf_commit h),
      fun h => congrArg _ (startIf_nop h)⟩
  · intro s c t q host oc h
    exact congrArg _ ((startIf_of_next h.next _ rfl host).trans (startCmd_of_passes h))
  · intro s c t q host oc st h verdict
    exact congrArg _ ((startIf_of_next h _ rfl host).trans (startCmd_of_verdict verdict c t host s))
  · intro s c t host q tok cc k n x w g next armed origin token may
    exact congrArg _ (startArmed_of_token next armed origin token may host)
  · intro s c t host h
    exact ⟨congrArg _ (startIf_none h _ host), congrArg _ (startIf_none h _ host)⟩

/-! ### Moving the bytes of a COPY -/

/-- Settles O31: with no seal, no verification and no measurement, a local command is its reads followed by one write. -/
theorem copyMovesItsBytes : Obligations.CopyMovesItsBytes := by
  unfold Obligations.CopyMovesItsBytes
  intro c t q s copy noVerify noSeal noMeasure e n src dst u srcGood
  simp only [e, n, src, dst, u] at srcGood ⊢
  refine ⟨fun short => ?_, fun full dstGood => ?_⟩
  · simp [runLocal, copy, noVerify, noSeal, ocCopy, ocVerify, srcGood, short]
  · simp [runLocal, copy, noVerify, noSeal, noMeasure, ocCopy, ocVerify, srcGood, full, dstGood]

/-! ### The timers of a slot -/

/-- A slot that carries a packet belongs to a command. -/
theorem slotOwner_of_slotPkt {s : State} {c t i : Nat} {p : CmdPkt} (h : slotPkt s c t i = some p) :
    ∃ id k, slotOwner s c t i = some (id, k) := by
  cases ho : slotOwner s c t i with
  | none => simp [slotPkt, ho] at h
  | some o => exact ⟨o.1, o.2, rfl⟩

/-- A packet in backoff goes out again from the same slot (R106). -/
theorem resendPkt_of_backoff {s : State} {c t i id k : Nat} {p : CmdPkt} (owner : slotOwner s c t i = some (id, k))
    (pkt : slotPkt s c t i = some p) (backoff : p.state = .backoff i) :
    resendPkt c t i s = inject c p.pkt (countEpb c 25 1 (s.modTe c t (Te.modCmd id fun q =>
      { q with pkts := modAt (fun p => { p with state := .outstanding i }) q.pkts k }))) := by
  simp [resendPkt, owner, pkt, backoff]

theorem resendPkt_of_outstanding {s : State} {c t i : Nat} {p : CmdPkt} (pkt : slotPkt s c t i = some p)
    (sent : p.state = .outstanding i) : resendPkt c t i s = s := by
  obtain ⟨id, k, owner⟩ := slotOwner_of_slotPkt pkt
  simp [resendPkt, owner, pkt, sent]

/-- An outstanding packet whose timer expires is lost, and its slot is quarantined (R84, R107). -/
theorem timeoutPkt_of_outstanding {s : State} {c t i : Nat} {p : CmdPkt} (pkt : slotPkt s c t i = some p)
    (sent : p.state = .outstanding i) :
    timeoutPkt c t i s = pumpTe c t (packetEnd .lost c t i stTimeout .quarantined s) := by
  simp [timeoutPkt, pkt, sent]

/-! ### Reporting the head of a queue -/

/-- The head of a queue has ended OK: it leaves the queue, and its origin alone is told (R113, R361). -/
theorem reportHead_ok {s : State} {c t : Nat} {q : TeCmd} {rest : List TeCmd} (queue : (s.te c t).queue = q :: rest)
    (ended : q.phase = .done stOk) :
    (∀ p r i g, q.origin = .ring p r i g → reportHead c t s =
      completeRing p r q.cq q.pasid i g q.entry stOk q.result q.detail (s.modTe c t fun te => { te with queue := rest })) ∧
    (∀ cc k n x w g, q.origin = .core cc k n x w g → reportHead c t s =
      coreCompletion cc k n x w g stOk (s.modTe c t fun te => { te with queue := rest })) := by
  have quiet : faulting stOk = false := rfl
  have inTime : stOk ≠ stTimeout := by decide
  exact ⟨fun p r i g origin => by simp [reportHead, queue, ended, origin, quiet, inTime],
    fun cc k n x w g origin => by simp [reportHead, queue, ended, origin, quiet, inTime]⟩

/-- A ring's command that failed completes, its fault is recorded, and the TE stalls (R372). -/
theorem reportHead_ring_fault {s : State} {c t p r i g st : Nat} {q : TeCmd} {rest : List TeCmd}
    (queue : (s.te c t).queue = q :: rest) (ended : q.phase = .done st) (origin : q.origin = .ring p r i g)
    (fails : faulting st = true) (inTime : st ≠ stTimeout) :
    let u := completeRing p r q.cq q.pasid i g q.entry st q.result q.detail (s.modTe c t fun te => { te with queue := rest })
    reportHead c t s =
      stallTe c t (fitBytes 64 (teFaultRecord u c t q st)) (faultRecord (faultPort u q) (teFaultRecord u c t q st) u) := by
  simp [reportHead, queue, ended, origin, fails, inTime]

theorem reportHead_empty {s : State} {c t : Nat} (queue : (s.te c t).queue = []) : reportHead c t s = s := by
  simp [reportHead, queue]

theorem exec_teCommandCompletion {s u : State} {c : Fin 16} {t : Fin 8} (h : reportHead c t s = u) :
    exec (.teCommandCompletion c t) s = .next (pumpTe c t (sillSettle (settleResume u))) := h ▸ rfl

/-- Settles O35: a timer acts on its slot by the state its packet is in, and a report by how the head's command ended. -/
theorem transferEngineTimersAndReports : Obligations.TransferEngineTimersAndReports := by
  unfold Obligations.TransferEngineTimersAndReports
  refine ⟨?_, ?_, ?_, ?_, ?_, ?_, ?_, ?_⟩
  · intro s c t i id k p owner pkt backoff
    exact congrArg _ (resendPkt_of_backoff owner pkt backoff)
  · intro s c t i p pkt sent
    exact ⟨congrArg _ (timeoutPkt_of_outstanding pkt sent), congrArg _ (resendPkt_of_outstanding pkt sent)⟩
  · intro s c t i quarantined
    exact if_pos (beq_iff_eq.mpr quarantined)
  · intro s c t i other
    exact if_neg (fun h => other (beq_iff_eq.mp h))
  · intro s c t q rest p r i g queue ended origin
    exact exec_teCommandCompletion ((reportHead_ok queue ended).1 p r i g origin)
  · intro s c t q rest cc k n x w g queue ended origin
    exact exec_teCommandCompletion ((reportHead_ok queue ended).2 cc k n x w g origin)
  · intro s c t q rest p r i g st queue ended origin notOk notReject notTorn inTime
    have fails : faulting st = true := by simp [faulting, notOk, notReject, notTorn]
    exact exec_teCommandCompletion (reportHead_ring_fault queue ended origin fails inTime)
  · intro s c t queue
    exact exec_teCommandCompletion (reportHead_empty queue)

end Sys2Proof.Machine
end

section
/-! PROOFS. The timers of an endpoint: Accord sessions, held flags, the collision queue and the page wait. -/
namespace Sys2Proof.Machine

/-! ### What a record of a ring leaves alone -/

/-- `t` is `s` but for the host ports, what has left the package, and the records the package holds back. -/
def OnlyRings (s t : State) : Prop := ∃ h o g, t = { s with hosts := h, out := o, glob := g }

theorem OnlyRings.trans {s t u : State} : OnlyRings s t → OnlyRings t u → OnlyRings s u := by
  rintro ⟨_, _, _, rfl⟩ ⟨_, _, _, rfl⟩
  exact ⟨_, _, _, rfl⟩

theorem OnlyRings.modHost (x : Nat) (f : HostPort → HostPort) (s : State) : OnlyRings s (s.modHost x f) := ⟨_, _, _, rfl⟩
theorem OnlyRings.emit (o : Output) (s : State) : OnlyRings s (s.emit o) := ⟨_, _, _, rfl⟩

theorem OnlyRings.epb {s t : State} : OnlyRings s t → ∀ e, t.epb e = s.epb e := by
  rintro ⟨_, _, _, rfl⟩ e
  rfl

theorem onlyRings_ringAsk (x : Nat) (o : RingOut) (s : State) : OnlyRings s (ringAsk x o s) := by
  unfold ringAsk askRing
  repeat' split
  all_goals exact ⟨_, _, _, rfl⟩

theorem onlyRings_msixSignal (x v : Nat) (s : State) : OnlyRings s (msixSignal x v s) := by
  unfold msixSignal
  dsimp only
  split
  · exact .modHost ..
  · exact .emit ..

theorem onlyRings_ringSend (x : Nat) (o : RingOut) (s : State) : OnlyRings s (ringSend x o s) := by
  cases o with
  | entry pasid a bs => exact .emit ..
  | signal v => exact onlyRings_msixSignal x v s

theorem onlyRings_ringPush (x : Nat) (o : RingOut) (s : State) : OnlyRings s (ringPush x o s) := by
  unfold ringPush
  split
  · exact onlyRings_ringSend x o s
  · dsimp only
    split
    · exact (onlyRings_ringAsk x o s).trans (.modHost ..)
    · exact .modHost ..

theorem onlyRings_ringRecord (fq : Bool) (x : Nat) (r : List Byte) (s : State) : OnlyRings s (ringRecord fq x r s) := by
  unfold ringRecord recordLost
  dsimp only
  split
  · exact .modHost ..
  · split
    · exact ((onlyRings_ringPush ..).trans (.modHost ..)).trans (onlyRings_ringPush ..)
    · exact (onlyRings_ringPush ..).trans (.modHost ..)

theorem onlyRings_faultRecord (x : Nat) (r : List Byte) (s : State) : OnlyRings s (faultRecord x r s) := by
  unfold faultRecord
  repeat' split
  · exact onlyRings_ringRecord ..
  · exact onlyRings_ringRecord ..
  · exact ⟨_, _, _, rfl⟩
  · exact .modHost ..

/-! ### What an answer leaves alone -/

theorem wakeDomain_eq (d : Nat) (s : State) : ∃ p, wakeDomain d s = { s with power := p } := by
  unfold wakeDomain setDomain
  repeat' split
  all_goals exact ⟨_, rfl⟩

@[simp] theorem wakeDomain_epbs (d : Nat) (s : State) : (wakeDomain d s).epbs = s.epbs := by
  obtain ⟨p, h⟩ := wakeDomain_eq d s
  rw [h]

@[simp] theorem countEpb_epbs (e i n : Nat) (s : State) : (countEpb e i n s).epbs = s.epbs := by
  obtain ⟨c, h⟩ := countEpb_eq e i n s
  rw [h]

/-- An answer goes to the switch; no endpoint changes (R78). -/
@[simp] theorem answer_epbs (e : Nat) (h : Header) (st : Nat) (s : State) : (answer e h st s).epbs = s.epbs := by
  simp [answer, answerWith, inject, apply_ite State.epbs]

/-! ### Accord sessions -/

/-- A session abandoned where notifications are off is gone, and only the fault ring learns of it (R100, R230). -/
theorem onlyRings_abandon {s : State} {e : Nat} (wf : SMap.wf Epb.reset s.epbs = true) (quiet : (s.epb e).notifyEn = false)
    (x : Session) (st : Nat) :
    OnlyRings (s.modEpb e fun b => { b with sessions := b.sessions.filter (· != x) }) (abandon e x st s) := by
  have record := fun (x' : Nat) (r : List Byte) =>
    onlyRings_faultRecord x' r (s.modEpb e fun b => { b with sessions := b.sessions.filter (· != x) })
  simp only [abandon, notifyEntry]
  rw [if_pos]
  · exact record ..
  · rw [(record ..).epb, State.modEpb_same_wf _ _ _ wf, quiet]
    rfl

theorem abandon_gone {s : State} {e : Nat} (wf : SMap.wf Epb.reset s.epbs = true) (quiet : (s.epb e).notifyEn = false)
    (x : Session) (st : Nat) :
    x ∉ ((abandon e x st s).epb e).sessions ∧ (abandon e x st s).dev = s.dev ∧
      (abandon e x st s).clusters = s.clusters := by
  have only := onlyRings_abandon wf quiet x st
  refine ⟨?_, ?_⟩
  · rw [only.epb, State.modEpb_same_wf _ _ _ wf]
    simp
  · obtain ⟨h, o, g, eq⟩ := only
    rw [eq]
    exact ⟨rfl, rfl⟩

/-! ### Held flags -/

/-- A stream's record that must be kept is in the table once it is stored. -/
theorem mem_putRec {s : State} {e : Nat} {r : StreamRec} (wf : SMap.wf Epb.reset s.epbs = true) (needed : r.needed = true) :
    r ∈ ((putRec e r s).epb e).streams := by
  simp [putRec, State.modEpb_same_wf _ _ _ wf, needed]

theorem putRec_brokenTimeouts {s : State} {e : Nat} (r : StreamRec) (wf : SMap.wf Epb.reset s.epbs = true) :
    ((putRec e r s).epb e).brokenTimeouts = (s.epb e).brokenTimeouts := by
  simp [putRec, State.modEpb_same_wf _ _ _ wf]

theorem putRec_wf {s : State} {e : Nat} (r : StreamRec) (wf : SMap.wf Epb.reset s.epbs = true) :
    SMap.wf Epb.reset (putRec e r s).epbs = true := by
  rw [putRec, State.modEpb_epbs]
  exact SMap.upd_wf _ _ _ _ wf

/-- A held flag that times out breaks its stream, and the endpoint counts it (R122). -/
theorem flagHoldTimeout_breaks {s : State} {e : Fin 16} {n : BitVec 12} {g : BitVec 6} {r : StreamRec} {x : Collided}
    (found : (s.epb e).streams.find? (fun r => r.snode == n.toNat && r.stag == g.toNat) = some r) (held : r.held = some x)
    (waits : r.due = false) :
    ∃ t, exec (.flagHoldTimeout e n g) s = .next t ∧ (SMap.wf Epb.reset s.epbs = true →
      (t.epb e).brokenTimeouts = cnt16 (s.epb e).brokenTimeouts ∧
      ({ r with held := none, broken := true } : StreamRec) ∈ (t.epb e).streams) := by
  change ∃ t, execFlagHoldTimeout e n g s = _ ∧ _
  simp only [execFlagHoldTimeout, found, held, waits, Bool.false_eq_true, if_false]
  refine ⟨_, rfl, fun wf => ?_⟩
  have answered : SMap.wf Epb.reset (answer e x.pkt.hdr stStreamBroken s).epbs = true := by rw [answer_epbs, wf]
  have same : (answer e x.pkt.hdr stStreamBroken s).epb e = s.epb e := by simp only [State.epb, answer_epbs]
  rw [(onlyRings_faultRecord ..).epb, State.modEpb_same_wf _ _ _ (putRec_wf _ answered)]
  refine ⟨?_, ?_⟩
  · rw [putRec_brokenTimeouts _ answered, same]
  · exact mem_putRec answered (by simp [StreamRec.needed])

/-! ### The collision queue -/

/-- The first queued write that may go is taken from the queue, worked, and held flags then due are released (R137). -/
theorem exec_collisionQueueDequeue {s : State} {e : Fin 16} {c : Collided}
    (free : readyCollided s.now (s.epb e).busy [] (s.epb e).collide = some c) :
    let u := unstall e (s.modEpb e fun b => { b with collide := b.collide.erase c })
    exec (.collisionQueueDequeue e) s = .next (releaseDue e
      (if inStream c.pkt.hdr.op.toNat && tableFull u e c.pkt.hdr then holdFull e c.pkt.hdr u
       else workStage e (LensDesc.at_w u e c.pkt.hdr.window) c.pkt c.segs u)) := by
  change execCollisionQueueDequeue e s = _
  simp only [execCollisionQueueDequeue, free]

/-- Settles O39: each timer finds the one thing it names, and what becomes of that is the endpoint's own operation. -/
theorem endpointTimersAndSessions : Obligations.EndpointTimersAndSessions := by
  unfold Obligations.EndpointTimersAndSessions
  refine ⟨?_, ?_, ?_, ?_, ?_, ?_⟩
  · intro s e w pos step x root found formed
    change execAccordRootWritten e w pos step s = _
    simp only [execAccordRootWritten, found, formed, Option.getD_some]
  · intro s e w pos step x found
    change execAccordTimeout e w pos step s = _
    simp only [execAccordTimeout, found]
  · intro s e x st wf quiet
    exact abandon_gone wf quiet x st
  · intro s e n g r x found held
    refine ⟨fun due => ?_, fun waits => flagHoldTimeout_breaks found held waits⟩
    change execFlagHoldTimeout e n g s = _
    simp only [execFlagHoldTimeout, found, held, due, if_true]
  · intro s e c free
    refine ⟨fun goes => ?_, fun stream full => ?_⟩
    · rw [exec_collisionQueueDequeue free, if_neg]
      rcases goes with other | room
      · simp [other]
      · simp [room]
    · rw [exec_collisionQueueDequeue free, if_pos]
      simp [stream, full]
  · intro s e x rest waiting
    change execPageWaitExpiry e s = _
    simp only [execPageWaitExpiry, waiting]

end Sys2Proof.Machine
end

section
/-! PROOFS. Packets through the switch: which packet of an input is taken, the checks it passes through, and the VC an
output grants. -/
namespace Sys2Proof.Machine

/-! ### The rows of the switch -/

theorem exec_packetArrival (i : Fin 104) (s : State) :
    exec (.packetArrival i) s = .next (linkPoll (pumpSource i (arriveIf (fun _ => true) i s))) := rfl

theorem exec_mcastStore_prism (i : Fin 104) (s : State) :
    exec (.mcastStore (.prism i)) s = .next (arriveIf (fun p => p.hdr.op.toNat == opMcast) i s) := rfl

theorem exec_mcastAck_prism (i : Fin 104) (s : State) :
    exec (.mcastAck (.prism i)) s = .next (arriveIf (fun p => p.hdr.op.toNat == opMcast + 0x80) i s) := rfl

theorem exec_gatherRecordFreed (e : Fin 16) (s : State) :
    exec (.gatherRecordFreed e) s =
      .next (pumpSource (88 + e) (arriveIf (fun p => p.hdr.op.toNat == opMcast) (88 + e) s)) := rfl

theorem exec_outputGrant (o : Fin 104) (s : State) : exec (.outputGrant o) s = .next (linkPoll (grantOutput o s)) := rfl

/-! ### What waking a domain and returning a credit leave alone -/

@[simp] theorem wakeDomain_glob (d : Nat) (s : State) : (wakeDomain d s).glob = s.glob := by
  obtain ⟨p, h⟩ := wakeDomain_eq d s
  rw [h]

@[simp] theorem wakeDomain_mgmt (d : Nat) (s : State) : (wakeDomain d s).mgmt = s.mgmt := by
  obtain ⟨p, h⟩ := wakeDomain_eq d s
  rw [h]

@[simp] theorem countPort_mgmt (n i v part : Nat) (s : State) : (countPort n i v part s).mgmt = s.mgmt := by
  obtain ⟨c, h⟩ := count_eq .port n i v s
  simp [countPort, h, apply_ite State.mgmt]

theorem lineAdvance_mgmt (n b k : Nat) (s : State) : (lineAdvance n b k s).mgmt = s.mgmt := by
  unfold lineAdvance
  dsimp only
  split <;> rfl

@[simp] theorem emitFrame_mgmt (n : Nat) (type : FrameType) (seq pstart pad : Nat) (data : List Byte) (s : State) :
    (emitFrame n type seq pstart pad data s).mgmt = s.mgmt := by
  have lines (l : List Nat) (b : Nat) (s : State) : (forEach l (lineAdvance n b) s).mgmt = s.mgmt :=
    forEach_keeps State.mgmt _ l s fun k s => lineAdvance_mgmt n b k s
  simp [emitFrame, apply_ite State.mgmt, lines]

@[simp] theorem creditBack_mgmt (i v n : Nat) (s : State) : (creditBack i v n s).mgmt = s.mgmt := by
  simp [creditBack, sendIdle, apply_ite State.mgmt]

/-- Storing a packet's cells leaves the management function alone. -/
@[simp] theorem storeCells_mgmt (i v n refs : Nat) (c : Colour) (s : State) : (storeCells i v n refs c s).2.mgmt = s.mgmt := by
  simp [storeCells, apply_ite State.mgmt]

/-! ### Taking the next packet of an input -/

/-- A switch that is ready takes the oldest packet of a fabric input, where the row serves it (R276). -/
theorem arriveIf_fabric {s : State} {i : Nat} {p : Packet} {ps : List Packet} (up : s.sw.ready = true) (fabric : i < 88)
    (rx : (s.port i).rx = p :: ps) {ok : Packet → Bool} (serves : ok p = true) :
    arriveIf ok i s = switchPacket i p (countRx i p (s.modPort i fun q => { q with rx := ps })) := by
  simp [arriveIf, up, fabric, rx, serves]

/-- It takes the first packet of an attachment that may enter (R303). -/
theorem arriveIf_attached {s : State} {e : Nat} {p : Packet} {ps : List Packet} (up : s.sw.ready = true)
    {ok : Packet → Bool} (next : nextAttached ok s (88 + e) [] (SMap.get [] s.sw.attachIn e) = some (p, ps)) :
    arriveIf ok (88 + e) s =
      switchPacket (88 + e) p (s.modSw fun w => { w with attachIn := SMap.set [] w.attachIn e ps }) := by
  have attachment : ¬ 88 + e < 88 := by omega
  simp only [arriveIf, up, attachment, Nat.add_sub_cancel_left, next, Bool.not_true, Bool.false_eq_true, if_false]

theorem pumpSource_fabric {i : Nat} (h : i < 88) (s : State) : pumpSource i s = s := if_neg (by omega)

/-- The head of an attachment enters if nothing keeps it back. -/
theorem nextAttached_head {ok : Packet → Bool} {s : State} {i : Nat} {p : Packet} (serves : ok p = true)
    (credit : attachCredit s (i - 88) p = true) (room : gatherBlocked s i p = false) (here : attachLost s (i - 88) = false)
    (ps : List Packet) : nextAttached ok s i [] (p :: ps) = some (p, ps) := by
  simp [nextAttached, serves, credit, room, here]

/-! ### The checks of a packet, in order (R276) -/

theorem wakeDomain_placed (d : Nat) (s : State) : (wakeDomain d s).placed = s.placed := by
  simp only [State.placed, wakeDomain_glob]

theorem switchPacket_unplaced {s : State} (h : s.placed = false) (i : Nat) (p : Packet) :
    switchPacket i p s = passCredits i p
      (if 88 ≤ i then noWay i p false (wakeDomain switchDom s) else noteNoRoute (wakeDomain switchDom s)) := by
  simp only [switchPacket, wakeDomain_placed, h, Bool.not_false, if_true]

section
variable {s : State} (placed : s.placed = true) (i : Nat) {p : Packet}
include placed

theorem switchPacket_badCrc (bad : p.hdr.hcrcOk = false) :
    switchPacket i p s = passCredits i p (noteHdrErr (wakeDomain switchDom s)) := by
  simp only [switchPacket, wakeDomain_placed, placed, bad, Bool.not_true, Bool.not_false, Bool.false_eq_true, if_true,
    if_false]

theorem switchPacket_badForm (sound : p.hdr.hcrcOk = true) (wrong : 257 ≤ p.hdr.len.toNat ∨ p.hdr.hop = 3) :
    switchPacket i p s = passCredits i p (answerMalformed p (noteHdrErr (wakeDomain switchDom s))) := by
  simp only [switchPacket, wakeDomain_placed, placed, sound, wrong, Bool.not_true, Bool.false_eq_true, Bool.or_eq_true,
    decide_eq_true_eq, if_true, if_false]

/-- A packet with a sound header is coloured by its input's policer, and dispatched. -/
theorem switchPacket_sound (sound : p.hdr.hcrcOk = true) (short : p.hdr.len.toNat < 257) (hop : p.hdr.hop ≠ 3) :
    switchPacket i p s = dispatchPacket i (police i p.hdr (wakeDomain switchDom s)).1 p
      (police i p.hdr (wakeDomain switchDom s)).2 := by
  have right : ¬(257 ≤ p.hdr.len.toNat ∨ p.hdr.hop = 3) := not_or.mpr ⟨Nat.not_le.mpr short, hop⟩
  simp only [switchPacket, wakeDomain_placed, placed, sound, right, Bool.not_true, Bool.false_eq_true, Bool.or_eq_true,
    decide_eq_true_eq, if_false]

end

/-- VC7 of a fabric input is a transit grant's. -/
theorem dispatchPacket_transit {i : Nat} (fabric : i < 88) {p : Packet} (vc : p.hdr.vc = 7) (c : Colour) (s : State) :
    dispatchPacket i c p s = transitPacket i p s := by
  simp [dispatchPacket, fabric, vc]

theorem dispatchPacket_fenced {i : Nat} {p : Packet} {s : State} (fabric : i < 88) (vc7 : p.hdr.vc ≠ 7#3)
    (vc0 : p.hdr.vc ≠ 0#3) (fenced : (s.port i).fenced = true) (c : Colour) :
    dispatchPacket i c p s = passCredits i p (noteFenceDrop i s) := by
  simp [dispatchPacket, fabric, vc7, vc0, fenced]

theorem dispatchPacket_mgmt {p : Packet} {s : State} (vc : p.hdr.vc = 0) (here : p.hdr.dnode.toNat / 16 = s.glob.slot)
    (i : Nat) (c : Colour) : dispatchPacket i c p s = arriveMgmt i p s := by
  simp [dispatchPacket, vc, here]

/-- The packet is no transit, no management, and no fence holds it: what follows is decided by its operation. -/
structure PassesFence (s : State) (i : Nat) (p : Packet) : Prop where
  managed : p.hdr.vc ≠ 0#3
  transit : ¬(i < 88 ∧ p.hdr.vc = 7#3)
  fence : ¬(i < 88 ∧ (s.port i).fenced = true)

section
variable {s : State} {i : Nat} {p : Packet} (h : PassesFence s i p) (c : Colour)
include h

theorem dispatchPacket_store (op : p.hdr.op.toNat = opMcast) : dispatchPacket i c p s = prismStore i c p s := by
  simp [dispatchPacket, h.managed, h.transit, h.fence, op]

theorem dispatchPacket_gather (op : p.hdr.op.toNat = opMcast + 0x80) (here : p.hdr.dnode.toNat / 16 = s.glob.slot) :
    dispatchPacket i c p s = gatherAck i p s := by
  simp [dispatchPacket, h.managed, h.transit, h.fence, op, here]

theorem dispatchPacket_forward (store : p.hdr.op.toNat ≠ opMcast)
    (gather : p.hdr.op.toNat ≠ opMcast + 0x80 ∨ ¬ p.hdr.dnode.toNat / 16 = s.glob.slot)
    (whole : splitMerged i p s = none) : dispatchPacket i c p s = forward i c p s := by
  have gather' : ¬(p.hdr.op.toNat = opMcast + 0x80 ∧ p.hdr.dnode.toNat / 16 = s.glob.slot) :=
    fun both => gather.elim (fun other => other both.1) (fun away => away both.2)
  simp [dispatchPacket, h.managed, h.transit, h.fence, store, gather', whole]

end

/-! ### The management function (R284) -/

/-- With space for its response and nothing held before it, a management packet is taken at once. -/
theorem arriveMgmt_taken {s : State} {p : Packet} (op : isMgmtOp p.hdr.op.toNat = true) (first : s.mgmt.held = [])
    (room : s.mgmt.rx.length ≤ Config.mgmtMore) (i : Nat) :
    arriveMgmt i p s = passCredits i p (s.modMgmt fun g =>
      { g with rx := g.rx ++ [{ pkt := p, listed := onList s p.hdr.snode.toNat }] }) := by
  simp [arriveMgmt, toMgmt, mgmtRoom, op, first, room]

/-- A request for whose response there is no space is held in the switch. -/
theorem arriveMgmt_held {s : State} {p : Packet} (op : isMgmtOp p.hdr.op.toNat = true)
    (full : s.mgmt.held ≠ [] ∨ Config.mgmtMore < s.mgmt.rx.length) (request : isResp p.hdr = false) (i : Nat) :
    ∃ id, (arriveMgmt i p s).mgmt.held =
        s.mgmt.held ++ [({ pkt := p, listed := onList s p.hdr.snode.toNat }, id)] ∧
      (arriveMgmt i p s).mgmt.rx = s.mgmt.rx := by
  have waits : ¬(s.mgmt.held = [] ∧ s.mgmt.rx.length ≤ Config.mgmtMore) := by
    rintro ⟨first, room⟩
    rcases full with held | more
    · exact held first
    · omega
  refine ⟨(storeCells i 0 (cellsOf p) 1 .unpoliced s).1, ?_⟩
  simp [arriveMgmt, toMgmt, mgmtRoom, op, request, waits]

/-! ### Routing -/

theorem forward_here {s : State} {p : Packet} (here : p.hdr.dnode.toNat / 16 = s.glob.slot) (i : Nat) (c : Colour) :
    forward i c p s = toEndpoint i c p s := if_pos here

theorem forward_away {s : State} {p : Packet} (away : ¬ p.hdr.dnode.toNat / 16 = s.glob.slot) (i : Nat) (c : Colour) :
    forward i c p s =
      if i < 88 ∧ p.hdr.hop = 2 then passCredits i p (noteHopLimit s)
      else routePacket i (if i < 88 then p.hdr.hop.toNat + 1 else 0) c p s := by
  simp [forward, away]

/-! ### The VC an output grants (R280, R310) -/

theorem pickClass_mem {s : State} {o v : Nat} {vs : List Nat} (h : pickClass s o vs = some v) : v ∈ vs := by
  unfold pickClass at h
  split at h
  case h_1 u found => exact Option.some.inj h ▸ List.mem_of_find?_eq_some found
  case h_2 => exact List.mem_of_mem_head? h

/-- The arbiter picks a VC that can be granted, and no shaped VC before VC0 and VC7. -/
theorem pickVc_spec {s : State} {o v : Nat} (h : pickVc s o = some v) :
    canGrant s o v = true ∧ (v ≠ 0 → canGrant s o 0 = false) ∧ (v ≠ 0 → v ≠ 7 → canGrant s o 7 = false) := by
  unfold pickVc at h
  split at h
  case isTrue can0 =>
    obtain rfl := Option.some.inj h
    exact ⟨can0, fun ne => absurd rfl ne, fun ne => absurd rfl ne⟩
  case isFalse no0 =>
    have no0 : canGrant s o 0 = false := Bool.eq_false_iff.mpr no0
    split at h
    case isTrue can7 =>
      obtain rfl := Option.some.inj h
      exact ⟨can7, fun _ => no0, fun _ ne => absurd rfl ne⟩
    case isFalse no7 =>
      refine ⟨?_, fun _ => no0, fun _ _ => Bool.eq_false_iff.mpr no7⟩
      dsimp only at h
      split at h
      case h_1 u picked =>
        obtain rfl := Option.some.inj h
        exact (List.mem_filter.mp (List.mem_filter.mp (pickClass_mem picked)).1).2
      case h_2 => exact (List.mem_filter.mp (List.mem_filter.mp (pickClass_mem h)).1).2

theorem grantOutput_of_pick {s : State} {o v : Nat} (h : pickVc (dropDoomed o s) o = some v) :
    grantOutput o s = grant o v (dropDoomed o s) := by
  simp [grantOutput, h]

theorem grantOutput_none {s : State} {o : Nat} (h : pickVc (dropDoomed o s) o = none) :
    grantOutput o s = dropDoomed o s := by
  simp [grantOutput, h]

/-- Settles O41: an input's next packet is the one `arriveIf` takes, each check of R276 turns away the packets of its
clause, and an output grants what `pickVc` names. -/
theorem packetsCrossTheSwitch : Obligations.PacketsCrossTheSwitch := by
  unfold Obligations.PacketsCrossTheSwitch
  intro dealt entered
  refine ⟨?_, ?_, ?_, ?_, ?_, ?_⟩
  · intro s i p ps up fabric rx
    refine ⟨?_, fun op => ?_, fun op => ?_⟩
    · rw [exec_packetArrival, arriveIf_fabric up fabric rx rfl, pumpSource_fabric fabric]
    · rw [exec_mcastStore_prism, arriveIf_fabric up fabric rx (by simp [op])]
    · rw [exec_mcastAck_prism, arriveIf_fabric up fabric rx (by simp [op])]
  · intro s e i p ps attachment up q
    rw [exec_packetArrival, exec_gatherRecordFreed, exec_mcastStore_prism, exec_mcastAck_prism, attachment]
    refine ⟨fun next => ?_, fun next => ?_, fun next => ?_⟩
    · rw [arriveIf_attached up next]
    · rw [arriveIf_attached up next]
      exact ⟨rfl, rfl⟩
    · rw [arriveIf_attached up next]
  · intro ok s i p ps serves credit room here
    exact nextAttached_head serves credit room here ps
  · intro s i p u
    exact ⟨fun unplaced => switchPacket_unplaced unplaced i p, fun placed =>
      ⟨switchPacket_badCrc placed i, switchPacket_badForm placed i, switchPacket_sound placed i⟩⟩
  · intro s i c p here
    refine ⟨?_, ?_, ?_, ?_, ?_, ?_, ?_, ?_, ?_⟩
    · exact fun fabric vc => dispatchPacket_transit fabric vc c s
    · exact fun fabric vc7 vc0 fenced => dispatchPacket_fenced fabric vc7 vc0 fenced c
    · exact fun vc at_ => dispatchPacket_mgmt vc at_ i c
    · exact fun op => ⟨fun first room => arriveMgmt_taken op first room i,
        fun full request => arriveMgmt_held op full request i⟩
    · intro vc0 fabric
      have passes : PassesFence s i p := ⟨vc0, fun h => (fabric h.1).1 h.2, fun h => by simp [(fabric h.1).2] at h⟩
      exact ⟨dispatchPacket_store passes c, dispatchPacket_gather passes c, dispatchPacket_forward passes c⟩
    · exact fun at_ => forward_here at_ i c
    · intro away fabric hop
      rw [forward_away away, if_pos ⟨fabric, hop⟩]
    · intro away fabric hop
      rw [forward_away away, if_neg (fun h => hop h.2), if_pos fabric]
    · intro away own
      rw [forward_away away, if_neg (by omega), if_neg (by omega)]
  · intro s o
    rw [exec_outputGrant]
    exact ⟨fun v picked => by rw [grantOutput_of_pick picked], fun none => by rw [grantOutput_none none],
      fun v picked => pickVc_spec picked⟩

end Sys2Proof.Machine
end
